-- ==== Sys2Proof/Word.lean ====
section
/-!
DEFINITION. The widths of the machine (`00_scope.md` R5, `10_state.md` R10 to R14): data is 8 bits wide,
addresses and the program counter 16 bits.
-/

namespace Sys2Proof

/-- A data byte: registers A, X, Y, P, SP and every memory cell (R5, R30). -/
abbrev Byte := BitVec 8

/-- A 16-bit address, and the program counter (R5, R13). -/
abbrev Word := BitVec 16

end Sys2Proof
end

