-- ==== Sys2Proof/Machine/Bits.lean ====
section
/-!
DEFINITION. The bit-field, byte-order and extension helpers of the notation (`00_scope.md` R8).
-/

namespace Sys2Proof

/-- `lo8(w) = w[7:0]` (R8). -/
def lo8 (w : Word) : Byte := w.setWidth 8

/-- `hi8(w) = w[15:8]` (R8). -/
def hi8 (w : Word) : Byte := (w >>> 8).setWidth 8

/-- `{hi, lo}`: the 16-bit word whose high byte is `hi` (R8, R39). -/
def join16 (hi lo : Byte) : Word := hi ++ lo

/-- `zext_16(v)` (R8). -/
def zext16 (v : Byte) : Word := v.setWidth 16

/-- `sext_16(v)`: extension by copies of bit 7 (R8, R94). -/
def sext16 (v : Byte) : Word := v.signExtend 16

end Sys2Proof
end

