-- ==== Sys2Proof/Config.lean ====
section
/-!
DEFINITION. The parameters of the block that its specification fixes (`00_scope.md` R5). The two open
memory parameters, RAM_INIT and ROM_INIT, are the contents of the state's memories: statements quantify
over them. The open parameter HOST_HOOK is an argument of the model's `run` (`Machine/HostOps.lean`).
-/

namespace Sys2Proof.Config

/-- STACK_BASE: the stack page is page 1 (R5, R42, decision D5). -/
def stackBase : Word := 0x0100#16

/-- RESET_VECTOR: address of the low byte of the reset vector (R5, R45). -/
def resetVector : Word := 0xFFFC#16

/-- SP_RESET: the top of the stack page (R5, R19, decision D2). -/
def spReset : Byte := 0xFF#8

/-- P_RESET: all eight flags clear (R5, R19, decision D3). -/
def pReset : Byte := 0x00#8

/-- LOAD_BASE: where `load` puts an image, and what it writes as the reset vector (R5, R221, decision D6). -/
def loadBase : Word := 0x8000#16

/-- The longest image `load` accepts (R221, decision D6). -/
def maxImage : Nat := 0x7FFC

/-- The number of RAM cells (R5, R33). -/
def ramSize : Nat := 0x0800

/-- PRG_ROM_SIZE: the number of ROM cells (R5, R36, decision D8). -/
def romSize : Nat := 0x8000

end Sys2Proof.Config
end

