-- ==== Sys2Proof/Machine/State.lean ====
section
/-!
DEFINITION. The state of the block (`10_state.md` R10 to R20), as plain data, the reasons a step can stop,
and the state right after reset (R19, R222).
-/

namespace Sys2Proof.Machine

/-- The direction of a memory access (`60_exceptions.md` R200). -/
inductive Access where
  | read | write
  deriving DecidableEq, Repr

/-- The three fatal error kinds, each with its record (R200 to R203). They are values of the run state, not
outcomes of the host's interface: raising one gives a next state (R204, log entry 1). -/
inductive FaultKind where
  /-- Raised by the decode of one of the 105 illegal bytes; the record is the byte (R201). -/
  | illegalOpcode (byte : Byte)
  /-- Raised by any access to 0x2000 to 0x3FFF; the record is the address and the direction (R202). -/
  | unsupportedRegion (addr : Word) (access : Access)
  /-- Raised by any write to 0x8000 to 0xFFFF; the record is the address and the byte (R203). -/
  | romWriteViolation (addr : Word) (value : Byte)
  deriving DecidableEq, Repr

/-- The run state (R15). -/
inductive RunState where
  | running
  | halted
  | faulted (kind : FaultKind)
  deriving DecidableEq, Repr

/-- The direction of a stack operation in a StackWrap diagnostic (R16, R207). -/
inductive StackOp where
  | push | pop
  deriving DecidableEq, Repr

/-- The entries of the diagnostic log (R16, R207). -/
inductive Diag where
  | stackWrap (op : StackOp)
  | ignoredWrite (addr : Word) (value : Byte)
  deriving DecidableEq, Repr

/-- A memory as the list of its cells that differ from what an unlisted cell reads as, by rising cell number
(`Memory.wf` in `Machine/Ops.lean`). -/
structure Memory where
  cells : List Host.Cell
  deriving DecidableEq, Repr

/-- The memory that lists nothing. -/
def Memory.empty : Memory := ⟨[]⟩

/-- Everything the block holds (R10 to R18). -/
structure State where
  /-- Accumulator (R10). -/
  a : Byte
  /-- Index register X (R10). -/
  x : Byte
  /-- Index register Y (R10). -/
  y : Byte
  /-- Status register, N V B2 B D I Z C from bit 7 to bit 0 (R11). -/
  p : Byte
  /-- Program counter (R13). -/
  pc : Word
  /-- Stack pointer, an offset into the stack page (R14). -/
  sp : Byte
  /-- Run state (R15). -/
  run : RunState
  /-- Diagnostic log, oldest entry first (R16). -/
  log : List Diag
  /-- RAM, by cell number 0x000 to 0x7FF (R17, R33). -/
  ram : Memory
  /-- PRG-ROM, by cell number 0x0000 to 0x7FFF (R17, R36). -/
  rom : Memory
  deriving DecidableEq, Repr

/-- The stuck states: a step was asked for where the specification says no step exists. -/
inductive Fault where
  /-- Raised by `step` in Halted: no step exists, only the host's reset applies (R7, R15). Safe. -/
  | noStepHalted
  /-- Raised by `step` in Faulted(kind): no step exists, only the host's reset applies (R7, R15). Safe. -/
  | noStepFaulted (kind : FaultKind)
  deriving DecidableEq, Repr

/-- Why an instruction has no meaning. -/
inductive Refusal where
  /-- Raised by an arm of `exec` for an instruction that is not modelled yet; no arm does. Safe. -/
  | notModelled (mnemonic : String)
  deriving DecidableEq, Repr

/-- The state after creation and the host's `reset`, with no image loaded (R19, R220, R222): registers and flags
clear, SP at the top of the stack page, Running, the log empty. RAM and ROM list nothing, and PC is the
value at 0xFFFC in that ROM (DESIGN CHOICE 0x0000 for the open RAM_INIT and ROM_INIT, log entry 3). -/
def State.reset : State where
  a := 0x00#8
  x := 0x00#8
  y := 0x00#8
  p := Config.pReset
  pc := 0x0000#16
  sp := Config.spReset
  run := .running
  log := []
  ram := Memory.empty
  rom := Memory.empty

end Sys2Proof.Machine
end

