-- ==== Sys2Proof/Machine/Flags.lean ====
section
/-!
DEFINITION. The status flags (`10_state.md` R11, R12) and every flag computation: `SetZN` (R8), the sum with
carry and overflow of ADC and SBC (R122, R123), the comparison (R154), the shifts and rotates (R131 to R134),
and the bytes PHP pushes and PLP and RTI restore (R182 to R184).
-/

namespace Sys2Proof.Machine

/-- The eight flags, every one really stored (R11). -/
inductive Flag where
  | C | Z | I | D | B | B2 | V | N
  deriving DecidableEq, Repr

/-- The bit a flag occupies in P (R11, decision D4). -/
def Flag.bit : Flag → Nat
  | .C => 0 | .Z => 1 | .I => 2 | .D => 3 | .B => 4 | .B2 => 5 | .V => 6 | .N => 7

/-- The mask of a flag (R11). -/
def Flag.mask (f : Flag) : Byte := 1#8 <<< f.bit

/-- Read one flag of a status byte. -/
def flagOf (p : Byte) (f : Flag) : Bool := p.getLsbD f.bit

/-- Write one flag of a status byte; the other seven bits stay. -/
def withFlag (p : Byte) (f : Flag) (b : Bool) : Byte :=
  if b then p ||| f.mask else p &&& ~~~f.mask

/-- `P.f` (R8). -/
def State.flag (s : State) (f : Flag) : Bool := flagOf s.p f

/-- `P.f <- b` (R8). -/
def State.setFlag (s : State) (f : Flag) (b : Bool) : State := { s with p := withFlag s.p f b }

/-- `SetZN(v)`: Z is `v == 0`, N is bit 7 of `v` (R8). -/
def State.setZN (s : State) (v : Byte) : State :=
  (s.setFlag .Z (v == 0#8)).setFlag .N (v.getLsbD 7)

/-- The carry flag as a number, for the exact sum. -/
def carryNat (c : Bool) : Nat := if c then 1 else 0

/-- The exact sum of ADC, a natural number from 0 to 511 (R122). -/
def adcSum (a m : Byte) (c : Bool) : Nat := a.toNat + m.toNat + carryNat c

/-- The result byte of ADC, `sum[7:0]` (R122). -/
def adcResult (a m : Byte) (c : Bool) : Byte := BitVec.ofNat 8 (adcSum a m c)

/-- The carry out of ADC, `sum > 0xFF` (R122). -/
def adcCarry (a m : Byte) (c : Bool) : Bool := decide (0xFF < adcSum a m c)

/-- The overflow test `((M ^ r) & (r ^ A) & 0x80) != 0` of ADC (R122). -/
def adcOverflow (a m : Byte) (c : Bool) : Bool :=
  ((m ^^^ adcResult a m c) &&& (adcResult a m c ^^^ a) &&& 0x80#8) != 0#8

/-- The value SBC adds: the one's complement of its operand, `M ^ 0xFF` (R123, decision D14). -/
def sbcAddend (m : Byte) : Byte := m ^^^ 0xFF#8

/-- ADC's effect on A and on C, V, Z and N for the addend `m` (R122); SBC uses it with the complement (R123). -/
def State.addToA (s : State) (m : Byte) : State :=
  let c := s.flag .C
  let s1 := (s.setFlag .C (adcCarry s.a m c)).setFlag .V (adcOverflow s.a m c)
  { s1 with a := adcResult s.a m c }.setZN (adcResult s.a m c)

/-- The flags of a comparison of register value `r` with `m`: C is `r >= m` unsigned, Z and N from `r -8 m` (R154). -/
def State.compareFlags (s : State) (r m : Byte) : State :=
  (s.setFlag .C (decide (m.toNat ≤ r.toNat))).setZN (r - m)

/-- The flags of BIT: Z from `A & M`, N and V copied from bits 7 and 6 of M (R153). -/
def State.bitFlags (s : State) (m : Byte) : State :=
  ((s.setFlag .Z ((s.a &&& m) == 0#8)).setFlag .N (m.getLsbD 7)).setFlag .V (m.getLsbD 6)

/-- The four one-bit shifts and rotates (R131 to R134). -/
inductive ShiftKind where
  | asl | lsr | rol | ror
  deriving DecidableEq, Repr

/-- The result byte of a shift or rotate of `v` with the carry `c` before it (R131 to R134). -/
def ShiftKind.result (k : ShiftKind) (v : Byte) (c : Bool) : Byte :=
  match k with
  | .asl => v <<< 1
  | .lsr => v >>> 1
  | .rol => (v <<< 1) ||| (if c then 0x01#8 else 0x00#8)
  | .ror => (v >>> 1) ||| (if c then 0x80#8 else 0x00#8)

/-- The bit shifted off: bit 7 of the operand for ASL and ROL, bit 0 for LSR and ROR (R131 to R134, conflict C2). -/
def ShiftKind.carryOut (k : ShiftKind) (v : Byte) : Bool :=
  match k with
  | .asl | .rol => v.getLsbD 7
  | .lsr | .ror => v.getLsbD 0

/-- The flags of a shift or rotate: C the bit shifted off, Z and N from the result (R131 to R134). -/
def State.shiftFlags (s : State) (k : ShiftKind) (v r : Byte) : State :=
  (s.setFlag .C (k.carryOut v)).setZN r

/-- The byte PHP pushes: P with Break and Break2 forced to 1 (R182). -/
def pushedStatus (p : Byte) : Byte := p ||| 0x30#8

/-- The status PLP and RTI restore from a popped byte: Break forced to 0, Break2 forced to 1 (R183, R184). -/
def pulledStatus (b : Byte) : Byte := (b &&& 0xEF#8) ||| 0x20#8

end Sys2Proof.Machine
end

