-- ==== Sys2Proof/Machine/Ops.lean ====
section
/-!
DEFINITION. The named operations over memory and registers: memories as canonical lists, the memory arbiter
(`20_memory.md` R30 to R41), the stack primitives (R42 to R44), register access, the advance of PC, and
fault entry (`60_exceptions.md` R204), which every meaning shares.
-/

namespace Sys2Proof.Machine

/-- What an instruction's meaning answers. -/
abbrev Result := Host.Outcome State Fault Refusal

/-! ### Memories as canonical lists -/

/-- What a cell that is not listed reads as. DESIGN CHOICE 0x00 for the open RAM_INIT and ROM_INIT (R17, log
entry 3); a memory with any other contents is one that lists them. -/
def Memory.unlisted : Byte := 0x00#8

/-- The byte a list of cells gives for cell `k`. -/
def lookupCell : List Host.Cell → Nat → Byte
  | [], _ => Memory.unlisted
  | (j, v) :: rest, k => if j = k then v else lookupCell rest k

/-- List `v` at cell `k`, keeping the order. -/
def insertCell : List Host.Cell → Nat → Byte → List Host.Cell
  | [], k, v => [(k, v)]
  | (j, u) :: rest, k, v =>
    if k < j then (k, v) :: (j, u) :: rest
    else if k = j then (k, v) :: rest
    else (j, u) :: insertCell rest k v

/-- Take cell `k` off the list. -/
def eraseCell : List Host.Cell → Nat → List Host.Cell
  | [], _ => []
  | (j, u) :: rest, k => if j = k then eraseCell rest k else (j, u) :: eraseCell rest k

/-- Read cell `k`. -/
def Memory.get (m : Memory) (k : Nat) : Byte := lookupCell m.cells k

/-- Write `v` to cell `k`; a value equal to what an unlisted cell reads as takes the entry off the list. -/
def Memory.set (m : Memory) (k : Nat) (v : Byte) : Memory :=
  ⟨if v = Memory.unlisted then eraseCell m.cells k else insertCell m.cells k v⟩

/-- The cell numbers of a list rise strictly, starting at `lo` or above and staying below `size`, and no entry
holds what an unlisted cell reads as. -/
def cellsWf (size : Nat) : Nat → List Host.Cell → Bool
  | _, [] => true
  | lo, (k, v) :: rest =>
    decide (lo ≤ k) && decide (k < size) && decide (v ≠ Memory.unlisted) && cellsWf size (k + 1) rest

/-- The canonical form of a memory of `size` cells: equal contents are equal lists. -/
def Memory.wf (size : Nat) (m : Memory) : Bool := cellsWf size 0 m.cells

/-! ### The memory arbiter -/

/-- The four regions of the address map (R32). -/
inductive Region where
  | ram | ppu | ignored | rom
  deriving DecidableEq, Repr

/-- The region an address lies in (R32): the decode is total. -/
def region (addr : Word) : Region :=
  if addr.toNat < 0x2000 then .ram
  else if addr.toNat < 0x4000 then .ppu
  else if addr.toNat < 0x8000 then .ignored
  else .rom

/-- The RAM cell of an address in the RAM window: the address masked to 11 bits (R33). -/
def ramCell (addr : Word) : Nat := (addr &&& 0x07FF#16).toNat

/-- The ROM cell of an address in the PRG-ROM window (R36). -/
def romCell (addr : Word) : Nat := addr.toNat - 0x8000

/-- `MemRead(addr, 1)` (R31 to R36). -/
def memRead (s : State) (addr : Word) : Except FaultKind Byte :=
  match region addr with
  | .ram => .ok (s.ram.get (ramCell addr))
  | .ppu => .error (.unsupportedRegion addr .read)
  | .ignored => .ok 0x00#8
  | .rom => .ok (s.rom.get (romCell addr))

/-- `diag(kind, info)`: append one entry to the log (R8, R16). -/
def State.diag (s : State) (d : Diag) : State := { s with log := s.log ++ [d] }

/-- `MemWrite(addr, 1, v)` (R31 to R36). -/
def memWrite (s : State) (addr : Word) (v : Byte) : Except FaultKind State :=
  match region addr with
  | .ram => .ok { s with ram := s.ram.set (ramCell addr) v }
  | .ppu => .error (.unsupportedRegion addr .write)
  | .ignored => .ok (s.diag (.ignoredWrite addr v))
  | .rom => .error (.romWriteViolation addr v)

/-- `MemRead(addr, 2)`: low byte first, then the high byte at `addr +16 1` (R37). -/
def memRead16 (s : State) (addr : Word) : Except FaultKind Word := do
  let lo ← memRead s addr
  let hi ← memRead s (addr + 1#16)
  return join16 hi lo

/-- `MemWrite(addr, 2, w)`: low byte first, then the high byte at `addr +16 1` (R38). A fault on the second byte
leaves the first one written (R205 b, vector M10), so the state comes with the fault. -/
def memWrite16 (s : State) (addr : Word) (w : Word) : Except (FaultKind × State) State :=
  match memWrite s addr (lo8 w) with
  | .error k => .error (k, s)
  | .ok s1 =>
    match memWrite s1 (addr + 1#16) (hi8 w) with
    | .error k => .error (k, s1)
    | .ok s2 => .ok s2

/-! ### Fault entry -/

/-- `raise Fault(kind, info)` (R204): the run state becomes Faulted and nothing else changes. -/
def State.raise (s : State) (k : FaultKind) : State := { s with run := .faulted k }

/-- Continue a meaning after accesses that can fault: a fault ends the instruction in the state it began in
(R204, R205 c and d). -/
def orFault {α : Type} (s : State) (r : Except FaultKind α) (k : α → State) : Result :=
  match r with
  | .ok v => .next (k v)
  | .error e => .next (s.raise e)

/-! ### Registers -/

/-- The three general registers (R10). -/
inductive Reg where
  | A | X | Y
  deriving DecidableEq, Repr

/-- Read a general register. -/
def State.reg (s : State) : Reg → Byte
  | .A => s.a
  | .X => s.x
  | .Y => s.y

/-- Write a general register. -/
def State.setReg (s : State) (r : Reg) (v : Byte) : State :=
  match r with
  | .A => { s with a := v }
  | .X => { s with x := v }
  | .Y => { s with y := v }

/-- `SP <- v` (R14). -/
def State.setSp (s : State) (v : Byte) : State := { s with sp := v }

/-- `P <- v`: the whole status register (R11). -/
def State.setP (s : State) (v : Byte) : State := { s with p := v }

/-- `PC <- target` (R13). -/
def State.setPc (s : State) (target : Word) : State := { s with pc := target }

/-- `PC <- PC +16 n` (R13, R81, decision D30). -/
def State.advance (s : State) (n : Nat) : State := { s with pc := s.pc + BitVec.ofNat 16 n }

/-- `run <- Halted` (R199). -/
def State.halt (s : State) : State := { s with run := .halted }

/-! ### The stack -/

/-- The address SP designates: `STACK_BASE + zext_16(SP)` (R14, R42). -/
def stackAddr (sp : Byte) : Word := Config.stackBase + zext16 sp

/-- `if wrapped then diag(StackWrap, op)` (R42, R43). -/
def State.diagIf (s : State) (wrapped : Bool) (op : StackOp) : State :=
  if wrapped then s.diag (.stackWrap op) else s

/-- `Push8(v)`: write at SP, log a wrap from 0x00, decrement SP (R42). -/
def push8 (s : State) (v : Byte) : Except FaultKind State := do
  let s1 ← memWrite s (stackAddr s.sp) v
  return (s1.diagIf (s.sp == 0x00#8) .push).setSp (s.sp - 1#8)

/-- `Pop8()`: log a wrap from 0xFF, increment SP, read at the new SP (R43). -/
def pop8 (s : State) : Except FaultKind (Byte × State) := do
  let s1 := (s.diagIf (s.sp == 0xFF#8) .pop).setSp (s.sp + 1#8)
  let v ← memRead s1 (stackAddr s1.sp)
  return (v, s1)

/-- `Push16(w)`: high byte first, then low byte (R44). -/
def push16 (s : State) (w : Word) : Except FaultKind State := do
  let s1 ← push8 s (hi8 w)
  push8 s1 (lo8 w)

/-- `Pop16()`: low byte first, then high byte (R44). -/
def pop16 (s : State) : Except FaultKind (Word × State) := do
  let (lo, s1) ← pop8 s
  let (hi, s2) ← pop8 s1
  return (join16 hi lo, s2)

end Sys2Proof.Machine
end

