-- ==== Sys2Proof/Syntax.lean ====
section
/-!
DEFINITION. The instruction set as syntax (`30_encoding.md` R60 to R64): mnemonics, formats, memory
addressing modes, operands, and `Instr`, one constructor for each of the 151 rows of the opcode table.
-/

namespace Sys2Proof

/-- The 56 mnemonics (R64), in the order of the specification's per-mnemonic table. -/
inductive Mnemonic where
  | LDA | LDX | LDY | STA | STX | STY | TAX | TAY | TXA | TYA
  | TSX | TXS | ADC | SBC | AND | ORA | EOR | ASL | LSR | ROL
  | ROR | INC | DEC | INX | INY | DEX | DEY | CMP | CPX | CPY
  | BIT | BCC | BCS | BEQ | BNE | BMI | BPL | BVC | BVS | JMP
  | JSR | RTS | PHA | PLA | PHP | PLP | RTI | CLC | SEC | CLD
  | SED | CLI | SEI | CLV | NOP | BRK
  deriving DecidableEq, Repr

/-- The thirteen formats, by the specification's short names (R61): Implied, Accumulator, Immediate,
ZeroPage, ZeroPageX, ZeroPageY, Absolute, AbsoluteX, AbsoluteY, Indirect, IndirectX, IndirectY, Relative. -/
inductive Format where
  | imp | acc | imm | zp | zpx | zpy | abs | abx | aby | ind | izx | izy | rel
  deriving DecidableEq, Repr

/-- The number of operand bytes of a format (R61). -/
def Format.operandLength : Format → Nat
  | .imp | .acc => 0
  | .imm | .zp | .zpx | .zpy | .izx | .izy | .rel => 1
  | .abs | .abx | .aby | .ind => 2

/-- The nine operand shapes that denote a memory address, with the field the instruction carries (R61, R85 to R93). -/
inductive Mode where
  | zp (zp : Byte) | zpx (zp : Byte) | zpy (zp : Byte)
  | abs (addr : Word) | abx (addr : Word) | aby (addr : Word)
  | ind (ptr : Word) | izx (zp : Byte) | izy (zp : Byte)
  deriving DecidableEq, Repr

/-- The format a memory mode belongs to (R61). -/
def Mode.format : Mode → Format
  | .zp _ => .zp | .zpx _ => .zpx | .zpy _ => .zpy
  | .abs _ => .abs | .abx _ => .abx | .aby _ => .aby
  | .ind _ => .ind | .izx _ => .izx | .izy _ => .izy

/-- An assembled operand (R62): nothing, register A, an immediate byte, a memory mode with its field, or a
branch offset (a two's-complement byte). -/
inductive Operand where
  | implied
  | accumulator
  | immediate (v : Byte)
  | memory (m : Mode)
  | relative (off : Byte)
  deriving DecidableEq, Repr

/-- The format of an operand (R61). -/
def Operand.format : Operand → Format
  | .implied => .imp
  | .accumulator => .acc
  | .immediate _ => .imm
  | .memory m => m.format
  | .relative _ => .rel

/-- What an instruction that reads one byte reads: an immediate byte or a memory byte (R112, R120, R154). -/
inductive Src where
  | imm (v : Byte)
  | mem (m : Mode)
  deriving DecidableEq, Repr

/-- A source as an operand of an instruction. -/
def Src.operand : Src → Operand
  | .imm v => .immediate v
  | .mem m => .memory m

/-- The instructions: one constructor for each row of the opcode table (R64), named by the mnemonic and, where
the mnemonic has several formats, the format's short name. -/
inductive Instr where
  -- LDA (R100)
  | ldaImm (v : Byte) | ldaZp (zp : Byte) | ldaZpx (zp : Byte) | ldaAbs (addr : Word) | ldaAbx (addr : Word)
  | ldaAby (addr : Word) | ldaIzx (zp : Byte) | ldaIzy (zp : Byte)
  -- LDX (R101)
  | ldxImm (v : Byte) | ldxZp (zp : Byte) | ldxZpy (zp : Byte) | ldxAbs (addr : Word) | ldxAby (addr : Word)
  -- LDY (R102)
  | ldyImm (v : Byte) | ldyZp (zp : Byte) | ldyZpx (zp : Byte) | ldyAbs (addr : Word) | ldyAbx (addr : Word)
  -- STA (R103)
  | staZp (zp : Byte) | staZpx (zp : Byte) | staAbs (addr : Word) | staAbx (addr : Word)
  | staAby (addr : Word) | staIzx (zp : Byte) | staIzy (zp : Byte)
  -- STX (R104)
  | stxZp (zp : Byte) | stxZpy (zp : Byte) | stxAbs (addr : Word)
  -- STY (R105)
  | styZp (zp : Byte) | styZpx (zp : Byte) | styAbs (addr : Word)
  -- TAX (R106)
  | tax
  -- TAY (R107)
  | tay
  -- TXA (R108)
  | txa
  -- TYA (R109)
  | tya
  -- TSX (R110)
  | tsx
  -- TXS (R111)
  | txs
  -- ADC (R122)
  | adcImm (v : Byte) | adcZp (zp : Byte) | adcZpx (zp : Byte) | adcAbs (addr : Word) | adcAbx (addr : Word)
  | adcAby (addr : Word) | adcIzx (zp : Byte) | adcIzy (zp : Byte)
  -- SBC (R123)
  | sbcImm (v : Byte) | sbcZp (zp : Byte) | sbcZpx (zp : Byte) | sbcAbs (addr : Word) | sbcAbx (addr : Word)
  | sbcAby (addr : Word) | sbcIzx (zp : Byte) | sbcIzy (zp : Byte)
  -- AND (R124)
  | andImm (v : Byte) | andZp (zp : Byte) | andZpx (zp : Byte) | andAbs (addr : Word) | andAbx (addr : Word)
  | andAby (addr : Word) | andIzx (zp : Byte) | andIzy (zp : Byte)
  -- ORA (R125)
  | oraImm (v : Byte) | oraZp (zp : Byte) | oraZpx (zp : Byte) | oraAbs (addr : Word) | oraAbx (addr : Word)
  | oraAby (addr : Word) | oraIzx (zp : Byte) | oraIzy (zp : Byte)
  -- EOR (R126)
  | eorImm (v : Byte) | eorZp (zp : Byte) | eorZpx (zp : Byte) | eorAbs (addr : Word) | eorAbx (addr : Word)
  | eorAby (addr : Word) | eorIzx (zp : Byte) | eorIzy (zp : Byte)
  -- ASL (R131)
  | aslAcc | aslZp (zp : Byte) | aslZpx (zp : Byte) | aslAbs (addr : Word) | aslAbx (addr : Word)
  -- LSR (R132)
  | lsrAcc | lsrZp (zp : Byte) | lsrZpx (zp : Byte) | lsrAbs (addr : Word) | lsrAbx (addr : Word)
  -- ROL (R133)
  | rolAcc | rolZp (zp : Byte) | rolZpx (zp : Byte) | rolAbs (addr : Word) | rolAbx (addr : Word)
  -- ROR (R134)
  | rorAcc | rorZp (zp : Byte) | rorZpx (zp : Byte) | rorAbs (addr : Word) | rorAbx (addr : Word)
  -- INC (R135)
  | incZp (zp : Byte) | incZpx (zp : Byte) | incAbs (addr : Word) | incAbx (addr : Word)
  -- DEC (R136)
  | decZp (zp : Byte) | decZpx (zp : Byte) | decAbs (addr : Word) | decAbx (addr : Word)
  -- INX (R137)
  | inx
  -- INY (R138)
  | iny
  -- DEX (R139)
  | dex
  -- DEY (R140)
  | dey
  -- CMP (R150)
  | cmpImm (v : Byte) | cmpZp (zp : Byte) | cmpZpx (zp : Byte) | cmpAbs (addr : Word) | cmpAbx (addr : Word)
  | cmpAby (addr : Word) | cmpIzx (zp : Byte) | cmpIzy (zp : Byte)
  -- CPX (R151)
  | cpxImm (v : Byte) | cpxZp (zp : Byte) | cpxAbs (addr : Word)
  -- CPY (R152)
  | cpyImm (v : Byte) | cpyZp (zp : Byte) | cpyAbs (addr : Word)
  -- BIT (R153)
  | bitZp (zp : Byte) | bitAbs (addr : Word)
  -- BCC (R161)
  | bcc (off : Byte)
  -- BCS (R162)
  | bcs (off : Byte)
  -- BEQ (R163)
  | beq (off : Byte)
  -- BNE (R164)
  | bne (off : Byte)
  -- BMI (R165)
  | bmi (off : Byte)
  -- BPL (R166)
  | bpl (off : Byte)
  -- BVC (R167)
  | bvc (off : Byte)
  -- BVS (R168)
  | bvs (off : Byte)
  -- JMP (R169)
  | jmpAbs (addr : Word) | jmpInd (ptr : Word)
  -- JSR (R170)
  | jsr (addr : Word)
  -- RTS (R171)
  | rts
  -- PHA (R180)
  | pha
  -- PLA (R181)
  | pla
  -- PHP (R182)
  | php
  -- PLP (R183)
  | plp
  -- RTI (R184)
  | rti
  -- CLC (R185)
  | clc
  -- SEC (R186)
  | sec
  -- CLD (R187)
  | cld
  -- SED (R188)
  | sed
  -- CLI (R189)
  | cli
  -- SEI (R190)
  | sei
  -- CLV (R191)
  | clv
  -- NOP (R198)
  | nop
  -- BRK (R199)
  | brk
  deriving DecidableEq, Repr

/-- The mnemonic of an instruction (R64). -/
def Instr.mnemonic : Instr → Mnemonic
  | .ldaImm _ | .ldaZp _ | .ldaZpx _ | .ldaAbs _ | .ldaAbx _ | .ldaAby _ | .ldaIzx _ | .ldaIzy _ => .LDA
  | .ldxImm _ | .ldxZp _ | .ldxZpy _ | .ldxAbs _ | .ldxAby _ => .LDX
  | .ldyImm _ | .ldyZp _ | .ldyZpx _ | .ldyAbs _ | .ldyAbx _ => .LDY
  | .staZp _ | .staZpx _ | .staAbs _ | .staAbx _ | .staAby _ | .staIzx _ | .staIzy _ => .STA
  | .stxZp _ | .stxZpy _ | .stxAbs _ => .STX
  | .styZp _ | .styZpx _ | .styAbs _ => .STY
  | .tax => .TAX
  | .tay => .TAY
  | .txa => .TXA
  | .tya => .TYA
  | .tsx => .TSX
  | .txs => .TXS
  | .adcImm _ | .adcZp _ | .adcZpx _ | .adcAbs _ | .adcAbx _ | .adcAby _ | .adcIzx _ | .adcIzy _ => .ADC
  | .sbcImm _ | .sbcZp _ | .sbcZpx _ | .sbcAbs _ | .sbcAbx _ | .sbcAby _ | .sbcIzx _ | .sbcIzy _ => .SBC
  | .andImm _ | .andZp _ | .andZpx _ | .andAbs _ | .andAbx _ | .andAby _ | .andIzx _ | .andIzy _ => .AND
  | .oraImm _ | .oraZp _ | .oraZpx _ | .oraAbs _ | .oraAbx _ | .oraAby _ | .oraIzx _ | .oraIzy _ => .ORA
  | .eorImm _ | .eorZp _ | .eorZpx _ | .eorAbs _ | .eorAbx _ | .eorAby _ | .eorIzx _ | .eorIzy _ => .EOR
  | .aslAcc | .aslZp _ | .aslZpx _ | .aslAbs _ | .aslAbx _ => .ASL
  | .lsrAcc | .lsrZp _ | .lsrZpx _ | .lsrAbs _ | .lsrAbx _ => .LSR
  | .rolAcc | .rolZp _ | .rolZpx _ | .rolAbs _ | .rolAbx _ => .ROL
  | .rorAcc | .rorZp _ | .rorZpx _ | .rorAbs _ | .rorAbx _ => .ROR
  | .incZp _ | .incZpx _ | .incAbs _ | .incAbx _ => .INC
  | .decZp _ | .decZpx _ | .decAbs _ | .decAbx _ => .DEC
  | .inx => .INX
  | .iny => .INY
  | .dex => .DEX
  | .dey => .DEY
  | .cmpImm _ | .cmpZp _ | .cmpZpx _ | .cmpAbs _ | .cmpAbx _ | .cmpAby _ | .cmpIzx _ | .cmpIzy _ => .CMP
  | .cpxImm _ | .cpxZp _ | .cpxAbs _ => .CPX
  | .cpyImm _ | .cpyZp _ | .cpyAbs _ => .CPY
  | .bitZp _ | .bitAbs _ => .BIT
  | .bcc _ => .BCC
  | .bcs _ => .BCS
  | .beq _ => .BEQ
  | .bne _ => .BNE
  | .bmi _ => .BMI
  | .bpl _ => .BPL
  | .bvc _ => .BVC
  | .bvs _ => .BVS
  | .jmpAbs _ | .jmpInd _ => .JMP
  | .jsr _ => .JSR
  | .rts => .RTS
  | .pha => .PHA
  | .pla => .PLA
  | .php => .PHP
  | .plp => .PLP
  | .rti => .RTI
  | .clc => .CLC
  | .sec => .SEC
  | .cld => .CLD
  | .sed => .SED
  | .cli => .CLI
  | .sei => .SEI
  | .clv => .CLV
  | .nop => .NOP
  | .brk => .BRK

/-- The operand of an instruction (R61, R62). -/
def Instr.operand : Instr → Operand
  | .ldaImm v => .immediate v
  | .ldaZp zp => .memory (.zp zp)
  | .ldaZpx zp => .memory (.zpx zp)
  | .ldaAbs addr => .memory (.abs addr)
  | .ldaAbx addr => .memory (.abx addr)
  | .ldaAby addr => .memory (.aby addr)
  | .ldaIzx zp => .memory (.izx zp)
  | .ldaIzy zp => .memory (.izy zp)
  | .ldxImm v => .immediate v
  | .ldxZp zp => .memory (.zp zp)
  | .ldxZpy zp => .memory (.zpy zp)
  | .ldxAbs addr => .memory (.abs addr)
  | .ldxAby addr => .memory (.aby addr)
  | .ldyImm v => .immediate v
  | .ldyZp zp => .memory (.zp zp)
  | .ldyZpx zp => .memory (.zpx zp)
  | .ldyAbs addr => .memory (.abs addr)
  | .ldyAbx addr => .memory (.abx addr)
  | .staZp zp => .memory (.zp zp)
  | .staZpx zp => .memory (.zpx zp)
  | .staAbs addr => .memory (.abs addr)
  | .staAbx addr => .memory (.abx addr)
  | .staAby addr => .memory (.aby addr)
  | .staIzx zp => .memory (.izx zp)
  | .staIzy zp => .memory (.izy zp)
  | .stxZp zp => .memory (.zp zp)
  | .stxZpy zp => .memory (.zpy zp)
  | .stxAbs addr => .memory (.abs addr)
  | .styZp zp => .memory (.zp zp)
  | .styZpx zp => .memory (.zpx zp)
  | .styAbs addr => .memory (.abs addr)
  | .tax => .implied
  | .tay => .implied
  | .txa => .implied
  | .tya => .implied
  | .tsx => .implied
  | .txs => .implied
  | .adcImm v => .immediate v
  | .adcZp zp => .memory (.zp zp)
  | .adcZpx zp => .memory (.zpx zp)
  | .adcAbs addr => .memory (.abs addr)
  | .adcAbx addr => .memory (.abx addr)
  | .adcAby addr => .memory (.aby addr)
  | .adcIzx zp => .memory (.izx zp)
  | .adcIzy zp => .memory (.izy zp)
  | .sbcImm v => .immediate v
  | .sbcZp zp => .memory (.zp zp)
  | .sbcZpx zp => .memory (.zpx zp)
  | .sbcAbs addr => .memory (.abs addr)
  | .sbcAbx addr => .memory (.abx addr)
  | .sbcAby addr => .memory (.aby addr)
  | .sbcIzx zp => .memory (.izx zp)
  | .sbcIzy zp => .memory (.izy zp)
  | .andImm v => .immediate v
  | .andZp zp => .memory (.zp zp)
  | .andZpx zp => .memory (.zpx zp)
  | .andAbs addr => .memory (.abs addr)
  | .andAbx addr => .memory (.abx addr)
  | .andAby addr => .memory (.aby addr)
  | .andIzx zp => .memory (.izx zp)
  | .andIzy zp => .memory (.izy zp)
  | .oraImm v => .immediate v
  | .oraZp zp => .memory (.zp zp)
  | .oraZpx zp => .memory (.zpx zp)
  | .oraAbs addr => .memory (.abs addr)
  | .oraAbx addr => .memory (.abx addr)
  | .oraAby addr => .memory (.aby addr)
  | .oraIzx zp => .memory (.izx zp)
  | .oraIzy zp => .memory (.izy zp)
  | .eorImm v => .immediate v
  | .eorZp zp => .memory (.zp zp)
  | .eorZpx zp => .memory (.zpx zp)
  | .eorAbs addr => .memory (.abs addr)
  | .eorAbx addr => .memory (.abx addr)
  | .eorAby addr => .memory (.aby addr)
  | .eorIzx zp => .memory (.izx zp)
  | .eorIzy zp => .memory (.izy zp)
  | .aslAcc => .accumulator
  | .aslZp zp => .memory (.zp zp)
  | .aslZpx zp => .memory (.zpx zp)
  | .aslAbs addr => .memory (.abs addr)
  | .aslAbx addr => .memory (.abx addr)
  | .lsrAcc => .accumulator
  | .lsrZp zp => .memory (.zp zp)
  | .lsrZpx zp => .memory (.zpx zp)
  | .lsrAbs addr => .memory (.abs addr)
  | .lsrAbx addr => .memory (.abx addr)
  | .rolAcc => .accumulator
  | .rolZp zp => .memory (.zp zp)
  | .rolZpx zp => .memory (.zpx zp)
  | .rolAbs addr => .memory (.abs addr)
  | .rolAbx addr => .memory (.abx addr)
  | .rorAcc => .accumulator
  | .rorZp zp => .memory (.zp zp)
  | .rorZpx zp => .memory (.zpx zp)
  | .rorAbs addr => .memory (.abs addr)
  | .rorAbx addr => .memory (.abx addr)
  | .incZp zp => .memory (.zp zp)
  | .incZpx zp => .memory (.zpx zp)
  | .incAbs addr => .memory (.abs addr)
  | .incAbx addr => .memory (.abx addr)
  | .decZp zp => .memory (.zp zp)
  | .decZpx zp => .memory (.zpx zp)
  | .decAbs addr => .memory (.abs addr)
  | .decAbx addr => .memory (.abx addr)
  | .inx => .implied
  | .iny => .implied
  | .dex => .implied
  | .dey => .implied
  | .cmpImm v => .immediate v
  | .cmpZp zp => .memory (.zp zp)
  | .cmpZpx zp => .memory (.zpx zp)
  | .cmpAbs addr => .memory (.abs addr)
  | .cmpAbx addr => .memory (.abx addr)
  | .cmpAby addr => .memory (.aby addr)
  | .cmpIzx zp => .memory (.izx zp)
  | .cmpIzy zp => .memory (.izy zp)
  | .cpxImm v => .immediate v
  | .cpxZp zp => .memory (.zp zp)
  | .cpxAbs addr => .memory (.abs addr)
  | .cpyImm v => .immediate v
  | .cpyZp zp => .memory (.zp zp)
  | .cpyAbs addr => .memory (.abs addr)
  | .bitZp zp => .memory (.zp zp)
  | .bitAbs addr => .memory (.abs addr)
  | .bcc off => .relative off
  | .bcs off => .relative off
  | .beq off => .relative off
  | .bne off => .relative off
  | .bmi off => .relative off
  | .bpl off => .relative off
  | .bvc off => .relative off
  | .bvs off => .relative off
  | .jmpAbs addr => .memory (.abs addr)
  | .jmpInd ptr => .memory (.ind ptr)
  | .jsr addr => .memory (.abs addr)
  | .rts => .implied
  | .pha => .implied
  | .pla => .implied
  | .php => .implied
  | .plp => .implied
  | .rti => .implied
  | .clc => .implied
  | .sec => .implied
  | .cld => .implied
  | .sed => .implied
  | .cli => .implied
  | .sei => .implied
  | .clv => .implied
  | .nop => .implied
  | .brk => .implied

/-- The format of an instruction (R61). -/
def Instr.format (i : Instr) : Format := i.operand.format

/-- The length of an instruction in bytes: the opcode byte and the operand bytes (R60). -/
def Instr.length (i : Instr) : Nat := 1 + i.format.operandLength

end Sys2Proof
end

