-- ==== Sys2Proof/Machine/Operands.lean ====
section
/-!
DEFINITION. The addressing resolver (`40_fetch_and_addressing.md` R82 to R96): the effective address of every
memory mode, the byte a source reads, the branch target, and the read-modify-write of a memory operand.
-/

namespace Sys2Proof

/-- The number of operand bytes of a memory mode: the `n` of `PC <- PC +16 n` (R61, R81). -/
def Mode.operandLength (m : Mode) : Nat := m.format.operandLength

/-- The number of operand bytes of a source (R61, R81). -/
def Src.operandLength (src : Src) : Nat := src.operand.format.operandLength

end Sys2Proof

namespace Sys2Proof.Machine

/-- The address of the second byte of a pointer that does not leave its page: `{w[15:8], w[7:0] +8 1}`. It is the
indirect-JMP quirk (R91) and, for a pointer in page 0, the wrap of R92 and R93 (ZP_PTR_WRAP, decision D10). -/
def samePageNext (w : Word) : Word := join16 (hi8 w) (lo8 w + 1#8)

/-- Read a little-endian pointer at `w`, low byte first, the second byte from the same page (R91, R92, R93). -/
def readPointer (s : State) (w : Word) : Except FaultKind Word := do
  let lo ← memRead s w
  let hi ← memRead s (samePageNext w)
  return join16 hi lo

/-- The effective address of a memory mode (R85 to R93). The resolver writes nothing and fails only when one
of its reads faults (R95). -/
def effAddr (s : State) : Mode → Except FaultKind Word
  | .zp zp => .ok (zext16 zp)
  | .zpx zp => .ok (zext16 (zp + s.x))
  | .zpy zp => .ok (zext16 (zp + s.y))
  | .abs addr => .ok addr
  | .abx addr => .ok (addr + zext16 s.x)
  | .aby addr => .ok (addr + zext16 s.y)
  | .ind ptr => readPointer s ptr
  | .izx zp => readPointer s (zext16 (zp + s.x))
  | .izy zp => do
    let base ← readPointer s (zext16 zp)
    return base + zext16 s.y

/-- The byte at the effective address of a memory mode: `M <- MemRead(EA, 1)`. -/
def readMode (s : State) (m : Mode) : Except FaultKind Byte := do
  let ea ← effAddr s m
  memRead s ea

/-- The byte an instruction reads: the immediate byte (R84) or the byte at the effective address (R85 to R93). -/
def readSrc (s : State) : Src → Except FaultKind Byte
  | .imm v => .ok v
  | .mem m => readMode s m

/-- Store a byte at the effective address of a memory mode: `MemWrite(EA, 1, v)` (R113). -/
def writeMode (s : State) (m : Mode) (v : Byte) : Except FaultKind State := do
  let ea ← effAddr s m
  memWrite s ea v

/-- Read-modify-write: compute EA once, read `v`, write `f v`; the byte read comes with the new state (R130). -/
def modifyMode (s : State) (m : Mode) (f : Byte → Byte) : Except FaultKind (Byte × State) := do
  let ea ← effAddr s m
  let v ← memRead s ea
  let s1 ← memWrite s ea (f v)
  return (v, s1)

/-- The target of a branch from the address `next` of the instruction after it (R94). -/
def branchTarget (next : Word) (off : Byte) : Word := next + sext16 off

end Sys2Proof.Machine
end

