-- ==== Sys2Proof/Machine/Arith.lean ====
section
/-!
DEFINITION. Arithmetic and logical instructions (`42_arithmetic_logical.md` R120 to R127). D changes nothing (R121).
-/

namespace Sys2Proof.Machine

/-- Read M, change A and the flags with it, advance PC (R120). -/
def withSrc (src : Src) (s : State) (f : Byte → State) : Result :=
  orFault s (readSrc s src) fun m => (f m).advance src.operandLength

/-- ADC: A, C, V, Z, N from `A + M + C` (R122). -/
def adc (src : Src) (s : State) : Result := withSrc src s fun m => s.addToA m

/-- SBC: the addition of ADC with the complement of M (R123, decision D14). -/
def sbc (src : Src) (s : State) : Result := withSrc src s fun m => s.addToA (sbcAddend m)

/-- A bitwise combination with A: A, Z and N only (R124 to R126). -/
def logical (f : Byte → Byte → Byte) (src : Src) (s : State) : Result :=
  withSrc src s fun m => (s.setReg .A (f s.a m)).setZN (f s.a m)

/-- ADC, Immediate (R122, R84). -/
def execAdcImm (v : Byte) (s : State) : Result := adc (.imm v) s

/-- ADC, ZeroPage (R122, R85). -/
def execAdcZp (zp : Byte) (s : State) : Result := adc (.mem (.zp zp)) s

/-- ADC, ZeroPageX (R122, R86). -/
def execAdcZpx (zp : Byte) (s : State) : Result := adc (.mem (.zpx zp)) s

/-- ADC, Absolute (R122, R88). -/
def execAdcAbs (addr : Word) (s : State) : Result := adc (.mem (.abs addr)) s

/-- ADC, AbsoluteX (R122, R89). -/
def execAdcAbx (addr : Word) (s : State) : Result := adc (.mem (.abx addr)) s

/-- ADC, AbsoluteY (R122, R90). -/
def execAdcAby (addr : Word) (s : State) : Result := adc (.mem (.aby addr)) s

/-- ADC, IndirectX (R122, R92). -/
def execAdcIzx (zp : Byte) (s : State) : Result := adc (.mem (.izx zp)) s

/-- ADC, IndirectY (R122, R93). -/
def execAdcIzy (zp : Byte) (s : State) : Result := adc (.mem (.izy zp)) s

/-- SBC, Immediate (R123, R84). -/
def execSbcImm (v : Byte) (s : State) : Result := sbc (.imm v) s

/-- SBC, ZeroPage (R123, R85). -/
def execSbcZp (zp : Byte) (s : State) : Result := sbc (.mem (.zp zp)) s

/-- SBC, ZeroPageX (R123, R86). -/
def execSbcZpx (zp : Byte) (s : State) : Result := sbc (.mem (.zpx zp)) s

/-- SBC, Absolute (R123, R88). -/
def execSbcAbs (addr : Word) (s : State) : Result := sbc (.mem (.abs addr)) s

/-- SBC, AbsoluteX (R123, R89). -/
def execSbcAbx (addr : Word) (s : State) : Result := sbc (.mem (.abx addr)) s

/-- SBC, AbsoluteY (R123, R90). -/
def execSbcAby (addr : Word) (s : State) : Result := sbc (.mem (.aby addr)) s

/-- SBC, IndirectX (R123, R92). -/
def execSbcIzx (zp : Byte) (s : State) : Result := sbc (.mem (.izx zp)) s

/-- SBC, IndirectY (R123, R93). -/
def execSbcIzy (zp : Byte) (s : State) : Result := sbc (.mem (.izy zp)) s

/-- AND, Immediate (R124, R84). -/
def execAndImm (v : Byte) (s : State) : Result := logical (· &&& ·) (.imm v) s

/-- AND, ZeroPage (R124, R85). -/
def execAndZp (zp : Byte) (s : State) : Result := logical (· &&& ·) (.mem (.zp zp)) s

/-- AND, ZeroPageX (R124, R86). -/
def execAndZpx (zp : Byte) (s : State) : Result := logical (· &&& ·) (.mem (.zpx zp)) s

/-- AND, Absolute (R124, R88). -/
def execAndAbs (addr : Word) (s : State) : Result := logical (· &&& ·) (.mem (.abs addr)) s

/-- AND, AbsoluteX (R124, R89). -/
def execAndAbx (addr : Word) (s : State) : Result := logical (· &&& ·) (.mem (.abx addr)) s

/-- AND, AbsoluteY (R124, R90). -/
def execAndAby (addr : Word) (s : State) : Result := logical (· &&& ·) (.mem (.aby addr)) s

/-- AND, IndirectX (R124, R92). -/
def execAndIzx (zp : Byte) (s : State) : Result := logical (· &&& ·) (.mem (.izx zp)) s

/-- AND, IndirectY (R124, R93). -/
def execAndIzy (zp : Byte) (s : State) : Result := logical (· &&& ·) (.mem (.izy zp)) s

/-- ORA, Immediate (R125, R84). -/
def execOraImm (v : Byte) (s : State) : Result := logical (· ||| ·) (.imm v) s

/-- ORA, ZeroPage (R125, R85). -/
def execOraZp (zp : Byte) (s : State) : Result := logical (· ||| ·) (.mem (.zp zp)) s

/-- ORA, ZeroPageX (R125, R86). -/
def execOraZpx (zp : Byte) (s : State) : Result := logical (· ||| ·) (.mem (.zpx zp)) s

/-- ORA, Absolute (R125, R88). -/
def execOraAbs (addr : Word) (s : State) : Result := logical (· ||| ·) (.mem (.abs addr)) s

/-- ORA, AbsoluteX (R125, R89). -/
def execOraAbx (addr : Word) (s : State) : Result := logical (· ||| ·) (.mem (.abx addr)) s

/-- ORA, AbsoluteY (R125, R90). -/
def execOraAby (addr : Word) (s : State) : Result := logical (· ||| ·) (.mem (.aby addr)) s

/-- ORA, IndirectX (R125, R92). -/
def execOraIzx (zp : Byte) (s : State) : Result := logical (· ||| ·) (.mem (.izx zp)) s

/-- ORA, IndirectY (R125, R93). -/
def execOraIzy (zp : Byte) (s : State) : Result := logical (· ||| ·) (.mem (.izy zp)) s

/-- EOR, Immediate (R126, R84). -/
def execEorImm (v : Byte) (s : State) : Result := logical (· ^^^ ·) (.imm v) s

/-- EOR, ZeroPage (R126, R85). -/
def execEorZp (zp : Byte) (s : State) : Result := logical (· ^^^ ·) (.mem (.zp zp)) s

/-- EOR, ZeroPageX (R126, R86). -/
def execEorZpx (zp : Byte) (s : State) : Result := logical (· ^^^ ·) (.mem (.zpx zp)) s

/-- EOR, Absolute (R126, R88). -/
def execEorAbs (addr : Word) (s : State) : Result := logical (· ^^^ ·) (.mem (.abs addr)) s

/-- EOR, AbsoluteX (R126, R89). -/
def execEorAbx (addr : Word) (s : State) : Result := logical (· ^^^ ·) (.mem (.abx addr)) s

/-- EOR, AbsoluteY (R126, R90). -/
def execEorAby (addr : Word) (s : State) : Result := logical (· ^^^ ·) (.mem (.aby addr)) s

/-- EOR, IndirectX (R126, R92). -/
def execEorIzx (zp : Byte) (s : State) : Result := logical (· ^^^ ·) (.mem (.izx zp)) s

/-- EOR, IndirectY (R126, R93). -/
def execEorIzy (zp : Byte) (s : State) : Result := logical (· ^^^ ·) (.mem (.izy zp)) s

end Sys2Proof.Machine
end

