-- ==== Sys2Proof/Machine/Compare.lean ====
section
/-!
DEFINITION. Compare and bit-test instructions (`44_compare_bit.md` R150 to R154).
-/

namespace Sys2Proof.Machine

/-- A comparison of a register with M: C, Z and N only; nothing stored (R154). -/
def compare (r : Reg) (src : Src) (s : State) : Result :=
  orFault s (readSrc s src) fun m => (s.compareFlags (s.reg r) m).advance src.operandLength

/-- BIT: Z from `A & M`, N and V from bits 7 and 6 of M; A unchanged (R153). -/
def bitTest (m : Mode) (s : State) : Result :=
  orFault s (readMode s m) fun v => (s.bitFlags v).advance m.operandLength

/-- CMP, Immediate (R150, R84). -/
def execCmpImm (v : Byte) (s : State) : Result := compare .A (.imm v) s

/-- CMP, ZeroPage (R150, R85). -/
def execCmpZp (zp : Byte) (s : State) : Result := compare .A (.mem (.zp zp)) s

/-- CMP, ZeroPageX (R150, R86). -/
def execCmpZpx (zp : Byte) (s : State) : Result := compare .A (.mem (.zpx zp)) s

/-- CMP, Absolute (R150, R88). -/
def execCmpAbs (addr : Word) (s : State) : Result := compare .A (.mem (.abs addr)) s

/-- CMP, AbsoluteX (R150, R89). -/
def execCmpAbx (addr : Word) (s : State) : Result := compare .A (.mem (.abx addr)) s

/-- CMP, AbsoluteY (R150, R90). -/
def execCmpAby (addr : Word) (s : State) : Result := compare .A (.mem (.aby addr)) s

/-- CMP, IndirectX (R150, R92). -/
def execCmpIzx (zp : Byte) (s : State) : Result := compare .A (.mem (.izx zp)) s

/-- CMP, IndirectY (R150, R93). -/
def execCmpIzy (zp : Byte) (s : State) : Result := compare .A (.mem (.izy zp)) s

/-- CPX, Immediate (R151, R84). -/
def execCpxImm (v : Byte) (s : State) : Result := compare .X (.imm v) s

/-- CPX, ZeroPage (R151, R85). -/
def execCpxZp (zp : Byte) (s : State) : Result := compare .X (.mem (.zp zp)) s

/-- CPX, Absolute (R151, R88). -/
def execCpxAbs (addr : Word) (s : State) : Result := compare .X (.mem (.abs addr)) s

/-- CPY, Immediate (R152, R84). -/
def execCpyImm (v : Byte) (s : State) : Result := compare .Y (.imm v) s

/-- CPY, ZeroPage (R152, R85). -/
def execCpyZp (zp : Byte) (s : State) : Result := compare .Y (.mem (.zp zp)) s

/-- CPY, Absolute (R152, R88). -/
def execCpyAbs (addr : Word) (s : State) : Result := compare .Y (.mem (.abs addr)) s

/-- BIT, ZeroPage (R153, R85). -/
def execBitZp (zp : Byte) (s : State) : Result := bitTest (.zp zp) s

/-- BIT, Absolute (R153, R88). -/
def execBitAbs (addr : Word) (s : State) : Result := bitTest (.abs addr) s

end Sys2Proof.Machine
end

