-- ==== Sys2Proof/Machine/Control.lean ====
section
/-!
DEFINITION. Branches, jumps, subroutine call and return (`45_branch_jump_subroutine.md` R160 to R172).
-/

namespace Sys2Proof.Machine

/-- A conditional branch: PC past the offset byte, then to the target when the condition holds (R160). -/
def branch (cond : Bool) (off : Byte) (s : State) : Result :=
  let s1 := s.advance 1
  .next (if cond then s1.setPc (branchTarget s1.pc off) else s1)

/-- JMP: PC becomes the effective address; the byte there is not accessed (R169). -/
def jump (m : Mode) (s : State) : Result := orFault s (effAddr s m) fun target => s.setPc target

/-- JSR: push the address of the last byte of the JSR, `PC +16 1` on entry, and jump (R170). -/
def callSub (target : Word) (s : State) : Result :=
  orFault s (push16 s (s.pc + 1#16)) fun s1 => s1.setPc target

/-- RTS: pop a word, low byte first, and go to that word plus 1 (R171). -/
def returnSub (s : State) : Result := orFault s (pop16 s) fun (w, s1) => s1.setPc (w + 1#16)

/-- BCC, Relative (R161, R94). -/
def execBcc (off : Byte) (s : State) : Result := branch (!s.flag .C) off s

/-- BCS, Relative (R162, R94). -/
def execBcs (off : Byte) (s : State) : Result := branch (s.flag .C) off s

/-- BEQ, Relative (R163, R94). -/
def execBeq (off : Byte) (s : State) : Result := branch (s.flag .Z) off s

/-- BNE, Relative (R164, R94). -/
def execBne (off : Byte) (s : State) : Result := branch (!s.flag .Z) off s

/-- BMI, Relative (R165, R94). -/
def execBmi (off : Byte) (s : State) : Result := branch (s.flag .N) off s

/-- BPL, Relative (R166, R94). -/
def execBpl (off : Byte) (s : State) : Result := branch (!s.flag .N) off s

/-- BVC, Relative (R167, R94). -/
def execBvc (off : Byte) (s : State) : Result := branch (!s.flag .V) off s

/-- BVS, Relative (R168, R94). -/
def execBvs (off : Byte) (s : State) : Result := branch (s.flag .V) off s

/-- JMP, Absolute (R169, R88). -/
def execJmpAbs (addr : Word) (s : State) : Result := jump (.abs addr) s

/-- JMP, Indirect (R169, R91). -/
def execJmpInd (ptr : Word) (s : State) : Result := jump (.ind ptr) s

/-- JSR, Absolute (R170, R88). -/
def execJsr (addr : Word) (s : State) : Result := callSub addr s

/-- RTS, Implied (R171, R82). -/
def execRts (s : State) : Result := returnSub s

end Sys2Proof.Machine
end

