-- ==== Sys2Proof/Machine/LoadStore.lean ====
section
/-!
DEFINITION. Load, store and register-transfer instructions (`41_load_store_transfer.md` R100 to R113). On entry to
every meaning PC holds the address after the opcode byte (R80).
-/

namespace Sys2Proof.Machine

/-- A load: read M, write the register, set Z and N from M, advance PC (R112). -/
def load (r : Reg) (src : Src) (s : State) : Result :=
  orFault s (readSrc s src) fun m => ((s.setReg r m).setZN m).advance src.operandLength

/-- A store: write the register at the effective address, advance PC; no flag (R113). -/
def store (r : Reg) (m : Mode) (s : State) : Result :=
  orFault s (writeMode s m (s.reg r)) fun s1 => s1.advance m.operandLength

/-- A transfer into a general register: copy and set Z and N (R106 to R110). -/
def transfer (v : Byte) (dst : Reg) (s : State) : Result := .next ((s.setReg dst v).setZN v)

/-- LDA, Immediate (R100, R84). -/
def execLdaImm (v : Byte) (s : State) : Result := load .A (.imm v) s

/-- LDA, ZeroPage (R100, R85). -/
def execLdaZp (zp : Byte) (s : State) : Result := load .A (.mem (.zp zp)) s

/-- LDA, ZeroPageX (R100, R86). -/
def execLdaZpx (zp : Byte) (s : State) : Result := load .A (.mem (.zpx zp)) s

/-- LDA, Absolute (R100, R88). -/
def execLdaAbs (addr : Word) (s : State) : Result := load .A (.mem (.abs addr)) s

/-- LDA, AbsoluteX (R100, R89). -/
def execLdaAbx (addr : Word) (s : State) : Result := load .A (.mem (.abx addr)) s

/-- LDA, AbsoluteY (R100, R90). -/
def execLdaAby (addr : Word) (s : State) : Result := load .A (.mem (.aby addr)) s

/-- LDA, IndirectX (R100, R92). -/
def execLdaIzx (zp : Byte) (s : State) : Result := load .A (.mem (.izx zp)) s

/-- LDA, IndirectY (R100, R93). -/
def execLdaIzy (zp : Byte) (s : State) : Result := load .A (.mem (.izy zp)) s

/-- LDX, Immediate (R101, R84). -/
def execLdxImm (v : Byte) (s : State) : Result := load .X (.imm v) s

/-- LDX, ZeroPage (R101, R85). -/
def execLdxZp (zp : Byte) (s : State) : Result := load .X (.mem (.zp zp)) s

/-- LDX, ZeroPageY (R101, R87). -/
def execLdxZpy (zp : Byte) (s : State) : Result := load .X (.mem (.zpy zp)) s

/-- LDX, Absolute (R101, R88). -/
def execLdxAbs (addr : Word) (s : State) : Result := load .X (.mem (.abs addr)) s

/-- LDX, AbsoluteY (R101, R90). -/
def execLdxAby (addr : Word) (s : State) : Result := load .X (.mem (.aby addr)) s

/-- LDY, Immediate (R102, R84). -/
def execLdyImm (v : Byte) (s : State) : Result := load .Y (.imm v) s

/-- LDY, ZeroPage (R102, R85). -/
def execLdyZp (zp : Byte) (s : State) : Result := load .Y (.mem (.zp zp)) s

/-- LDY, ZeroPageX (R102, R86). -/
def execLdyZpx (zp : Byte) (s : State) : Result := load .Y (.mem (.zpx zp)) s

/-- LDY, Absolute (R102, R88). -/
def execLdyAbs (addr : Word) (s : State) : Result := load .Y (.mem (.abs addr)) s

/-- LDY, AbsoluteX (R102, R89). -/
def execLdyAbx (addr : Word) (s : State) : Result := load .Y (.mem (.abx addr)) s

/-- STA, ZeroPage (R103, R85). -/
def execStaZp (zp : Byte) (s : State) : Result := store .A (.zp zp) s

/-- STA, ZeroPageX (R103, R86). -/
def execStaZpx (zp : Byte) (s : State) : Result := store .A (.zpx zp) s

/-- STA, Absolute (R103, R88). -/
def execStaAbs (addr : Word) (s : State) : Result := store .A (.abs addr) s

/-- STA, AbsoluteX (R103, R89). -/
def execStaAbx (addr : Word) (s : State) : Result := store .A (.abx addr) s

/-- STA, AbsoluteY (R103, R90). -/
def execStaAby (addr : Word) (s : State) : Result := store .A (.aby addr) s

/-- STA, IndirectX (R103, R92). -/
def execStaIzx (zp : Byte) (s : State) : Result := store .A (.izx zp) s

/-- STA, IndirectY (R103, R93). -/
def execStaIzy (zp : Byte) (s : State) : Result := store .A (.izy zp) s

/-- STX, ZeroPage (R104, R85). -/
def execStxZp (zp : Byte) (s : State) : Result := store .X (.zp zp) s

/-- STX, ZeroPageY (R104, R87). -/
def execStxZpy (zp : Byte) (s : State) : Result := store .X (.zpy zp) s

/-- STX, Absolute (R104, R88). -/
def execStxAbs (addr : Word) (s : State) : Result := store .X (.abs addr) s

/-- STY, ZeroPage (R105, R85). -/
def execStyZp (zp : Byte) (s : State) : Result := store .Y (.zp zp) s

/-- STY, ZeroPageX (R105, R86). -/
def execStyZpx (zp : Byte) (s : State) : Result := store .Y (.zpx zp) s

/-- STY, Absolute (R105, R88). -/
def execStyAbs (addr : Word) (s : State) : Result := store .Y (.abs addr) s

/-- TAX, Implied (R106, R82). -/
def execTax (s : State) : Result := transfer s.a .X s

/-- TAY, Implied (R107, R82). -/
def execTay (s : State) : Result := transfer s.a .Y s

/-- TXA, Implied (R108, R82). -/
def execTxa (s : State) : Result := transfer s.x .A s

/-- TYA, Implied (R109, R82). -/
def execTya (s : State) : Result := transfer s.y .A s

/-- TSX, Implied (R110, R82). -/
def execTsx (s : State) : Result := transfer s.sp .X s

/-- TXS: copy X into SP; no flag, no diagnostic (R111). -/
def execTxs (s : State) : Result := .next (s.setSp s.x)

end Sys2Proof.Machine
end

