-- ==== Sys2Proof/Machine/Shift.lean ====
section
/-!
DEFINITION. Shift, rotate, increment and decrement instructions (`43_shift_incdec.md` R130 to R140).
-/

namespace Sys2Proof.Machine

/-- A shift or rotate of A: A, C, Z, N; no memory access (R130). -/
def shiftA (k : ShiftKind) (s : State) : Result :=
  let r := k.result s.a (s.flag .C)
  .next ((s.setReg .A r).shiftFlags k s.a r)

/-- A shift or rotate of a memory byte: read, write at the same address, then the flags; A untouched (R130). -/
def shiftMem (k : ShiftKind) (m : Mode) (s : State) : Result :=
  orFault s (modifyMode s m fun v => k.result v (s.flag .C)) fun (v, s1) =>
    (s1.shiftFlags k v (k.result v (s.flag .C))).advance m.operandLength

/-- INC and DEC: a memory byte becomes `f` of itself modulo 256, Z and N from the result, C and V kept (R135, R136). -/
def stepMem (f : Byte → Byte) (m : Mode) (s : State) : Result :=
  orFault s (modifyMode s m f) fun (v, s1) => (s1.setZN (f v)).advance m.operandLength

/-- INX, INY, DEX, DEY: a register becomes `v`, Z and N from it (R137 to R140). -/
def stepReg (r : Reg) (v : Byte) (s : State) : Result := .next ((s.setReg r v).setZN v)

/-- ASL, Accumulator (R131, R83). -/
def execAslAcc (s : State) : Result := shiftA .asl s

/-- ASL, ZeroPage (R131, R85). -/
def execAslZp (zp : Byte) (s : State) : Result := shiftMem .asl (.zp zp) s

/-- ASL, ZeroPageX (R131, R86). -/
def execAslZpx (zp : Byte) (s : State) : Result := shiftMem .asl (.zpx zp) s

/-- ASL, Absolute (R131, R88). -/
def execAslAbs (addr : Word) (s : State) : Result := shiftMem .asl (.abs addr) s

/-- ASL, AbsoluteX (R131, R89). -/
def execAslAbx (addr : Word) (s : State) : Result := shiftMem .asl (.abx addr) s

/-- LSR, Accumulator (R132, R83). -/
def execLsrAcc (s : State) : Result := shiftA .lsr s

/-- LSR, ZeroPage (R132, R85). -/
def execLsrZp (zp : Byte) (s : State) : Result := shiftMem .lsr (.zp zp) s

/-- LSR, ZeroPageX (R132, R86). -/
def execLsrZpx (zp : Byte) (s : State) : Result := shiftMem .lsr (.zpx zp) s

/-- LSR, Absolute (R132, R88). -/
def execLsrAbs (addr : Word) (s : State) : Result := shiftMem .lsr (.abs addr) s

/-- LSR, AbsoluteX (R132, R89). -/
def execLsrAbx (addr : Word) (s : State) : Result := shiftMem .lsr (.abx addr) s

/-- ROL, Accumulator (R133, R83). -/
def execRolAcc (s : State) : Result := shiftA .rol s

/-- ROL, ZeroPage (R133, R85). -/
def execRolZp (zp : Byte) (s : State) : Result := shiftMem .rol (.zp zp) s

/-- ROL, ZeroPageX (R133, R86). -/
def execRolZpx (zp : Byte) (s : State) : Result := shiftMem .rol (.zpx zp) s

/-- ROL, Absolute (R133, R88). -/
def execRolAbs (addr : Word) (s : State) : Result := shiftMem .rol (.abs addr) s

/-- ROL, AbsoluteX (R133, R89). -/
def execRolAbx (addr : Word) (s : State) : Result := shiftMem .rol (.abx addr) s

/-- ROR, Accumulator (R134, R83). -/
def execRorAcc (s : State) : Result := shiftA .ror s

/-- ROR, ZeroPage (R134, R85). -/
def execRorZp (zp : Byte) (s : State) : Result := shiftMem .ror (.zp zp) s

/-- ROR, ZeroPageX (R134, R86). -/
def execRorZpx (zp : Byte) (s : State) : Result := shiftMem .ror (.zpx zp) s

/-- ROR, Absolute (R134, R88). -/
def execRorAbs (addr : Word) (s : State) : Result := shiftMem .ror (.abs addr) s

/-- ROR, AbsoluteX (R134, R89). -/
def execRorAbx (addr : Word) (s : State) : Result := shiftMem .ror (.abx addr) s

/-- INC, ZeroPage (R135, R85). -/
def execIncZp (zp : Byte) (s : State) : Result := stepMem (· + 1#8) (.zp zp) s

/-- INC, ZeroPageX (R135, R86). -/
def execIncZpx (zp : Byte) (s : State) : Result := stepMem (· + 1#8) (.zpx zp) s

/-- INC, Absolute (R135, R88). -/
def execIncAbs (addr : Word) (s : State) : Result := stepMem (· + 1#8) (.abs addr) s

/-- INC, AbsoluteX (R135, R89). -/
def execIncAbx (addr : Word) (s : State) : Result := stepMem (· + 1#8) (.abx addr) s

/-- DEC, ZeroPage (R136, R85). -/
def execDecZp (zp : Byte) (s : State) : Result := stepMem (· - 1#8) (.zp zp) s

/-- DEC, ZeroPageX (R136, R86). -/
def execDecZpx (zp : Byte) (s : State) : Result := stepMem (· - 1#8) (.zpx zp) s

/-- DEC, Absolute (R136, R88). -/
def execDecAbs (addr : Word) (s : State) : Result := stepMem (· - 1#8) (.abs addr) s

/-- DEC, AbsoluteX (R136, R89). -/
def execDecAbx (addr : Word) (s : State) : Result := stepMem (· - 1#8) (.abx addr) s

/-- INX, Implied (R137, R82). -/
def execInx (s : State) : Result := stepReg .X (s.x + 1#8) s

/-- INY, Implied (R138, R82). -/
def execIny (s : State) : Result := stepReg .Y (s.y + 1#8) s

/-- DEX, Implied (R139, R82). -/
def execDex (s : State) : Result := stepReg .X (s.x - 1#8) s

/-- DEY, Implied (R140, R82). -/
def execDey (s : State) : Result := stepReg .Y (s.y - 1#8) s

end Sys2Proof.Machine
end

