-- ==== Sys2Proof/Machine/System.lean ====
section
/-!
DEFINITION. Stack operations, interrupt return, flag instructions, NOP and BRK
(`46_stack_rti_flags_nop_brk.md` R180 to R199).
-/

namespace Sys2Proof.Machine

/-- Push one byte (R180, R182). -/
def push (v : Byte) (s : State) : Result := orFault s (push8 s v) id

/-- PLA: pop into A and set Z and N (R181). -/
def pullA (s : State) : Result := orFault s (pop8 s) fun (v, s1) => (s1.setReg .A v).setZN v

/-- PLP: pop into P with Break cleared and Break2 set (R183). -/
def pullP (s : State) : Result := orFault s (pop8 s) fun (b, s1) => s1.setP (pulledStatus b)

/-- The three pops of RTI, P first and then PC low and high (R184). -/
def popFrame (s : State) : Except FaultKind (Byte × Word × State) := do
  let (b, s1) ← pop8 s
  let (w, s2) ← pop16 s1
  return (b, w, s2)

/-- RTI, the return from interrupt: P as PLP, then PC, with nothing added (R184, R210). -/
def returnInterrupt (s : State) : Result :=
  orFault s (popFrame s) fun (b, w, s1) => (s1.setP (pulledStatus b)).setPc w

/-- PHA, Implied (R180, R82). -/
def execPha (s : State) : Result := push s.a s

/-- PLA, Implied (R181, R82). -/
def execPla (s : State) : Result := pullA s

/-- PHP, Implied (R182, R82). -/
def execPhp (s : State) : Result := push (pushedStatus s.p) s

/-- PLP, Implied (R183, R82). -/
def execPlp (s : State) : Result := pullP s

/-- RTI, Implied (R184, R82). -/
def execRti (s : State) : Result := returnInterrupt s

/-- CLC, Implied (R185, R82). -/
def execClc (s : State) : Result := .next (s.setFlag .C false)

/-- SEC, Implied (R186, R82). -/
def execSec (s : State) : Result := .next (s.setFlag .C true)

/-- CLD, Implied (R187, R82). -/
def execCld (s : State) : Result := .next (s.setFlag .D false)

/-- SED, Implied (R188, R82). -/
def execSed (s : State) : Result := .next (s.setFlag .D true)

/-- CLI, Implied (R189, R82). -/
def execCli (s : State) : Result := .next (s.setFlag .I false)

/-- SEI, Implied (R190, R82). -/
def execSei (s : State) : Result := .next (s.setFlag .I true)

/-- CLV, Implied (R191, R82). -/
def execClv (s : State) : Result := .next (s.setFlag .V false)

/-- NOP: no state change beyond the advance of PC that the fetch made (R198). -/
def execNop (s : State) : Result := .next s

/-- BRK: halt, and nothing else (R199, R209, decision D17). -/
def execBrk (s : State) : Result := .next s.halt

end Sys2Proof.Machine
end

