-- ==== Sys2Proof/Machine/Dispatch.lean ====
section
/-!
DEFINITION. The dispatch: one arm for each instruction of the opcode table (`30_encoding.md` R64).
-/

namespace Sys2Proof.Machine

def exec (i : Instr) (s : State) : Host.Outcome State Fault Refusal :=
  match i with
  | .ldaImm v => Sys2Proof.Machine.execLdaImm v s
  | .ldaZp zp => Sys2Proof.Machine.execLdaZp zp s
  | .ldaZpx zp => Sys2Proof.Machine.execLdaZpx zp s
  | .ldaAbs addr => Sys2Proof.Machine.execLdaAbs addr s
  | .ldaAbx addr => Sys2Proof.Machine.execLdaAbx addr s
  | .ldaAby addr => Sys2Proof.Machine.execLdaAby addr s
  | .ldaIzx zp => Sys2Proof.Machine.execLdaIzx zp s
  | .ldaIzy zp => Sys2Proof.Machine.execLdaIzy zp s
  | .ldxImm v => Sys2Proof.Machine.execLdxImm v s
  | .ldxZp zp => Sys2Proof.Machine.execLdxZp zp s
  | .ldxZpy zp => Sys2Proof.Machine.execLdxZpy zp s
  | .ldxAbs addr => Sys2Proof.Machine.execLdxAbs addr s
  | .ldxAby addr => Sys2Proof.Machine.execLdxAby addr s
  | .ldyImm v => Sys2Proof.Machine.execLdyImm v s
  | .ldyZp zp => Sys2Proof.Machine.execLdyZp zp s
  | .ldyZpx zp => Sys2Proof.Machine.execLdyZpx zp s
  | .ldyAbs addr => Sys2Proof.Machine.execLdyAbs addr s
  | .ldyAbx addr => Sys2Proof.Machine.execLdyAbx addr s
  | .staZp zp => Sys2Proof.Machine.execStaZp zp s
  | .staZpx zp => Sys2Proof.Machine.execStaZpx zp s
  | .staAbs addr => Sys2Proof.Machine.execStaAbs addr s
  | .staAbx addr => Sys2Proof.Machine.execStaAbx addr s
  | .staAby addr => Sys2Proof.Machine.execStaAby addr s
  | .staIzx zp => Sys2Proof.Machine.execStaIzx zp s
  | .staIzy zp => Sys2Proof.Machine.execStaIzy zp s
  | .stxZp zp => Sys2Proof.Machine.execStxZp zp s
  | .stxZpy zp => Sys2Proof.Machine.execStxZpy zp s
  | .stxAbs addr => Sys2Proof.Machine.execStxAbs addr s
  | .styZp zp => Sys2Proof.Machine.execStyZp zp s
  | .styZpx zp => Sys2Proof.Machine.execStyZpx zp s
  | .styAbs addr => Sys2Proof.Machine.execStyAbs addr s
  | .tax => Sys2Proof.Machine.execTax s
  | .tay => Sys2Proof.Machine.execTay s
  | .txa => Sys2Proof.Machine.execTxa s
  | .tya => Sys2Proof.Machine.execTya s
  | .tsx => Sys2Proof.Machine.execTsx s
  | .txs => Sys2Proof.Machine.execTxs s
  | .adcImm v => Sys2Proof.Machine.execAdcImm v s
  | .adcZp zp => Sys2Proof.Machine.execAdcZp zp s
  | .adcZpx zp => Sys2Proof.Machine.execAdcZpx zp s
  | .adcAbs addr => Sys2Proof.Machine.execAdcAbs addr s
  | .adcAbx addr => Sys2Proof.Machine.execAdcAbx addr s
  | .adcAby addr => Sys2Proof.Machine.execAdcAby addr s
  | .adcIzx zp => Sys2Proof.Machine.execAdcIzx zp s
  | .adcIzy zp => Sys2Proof.Machine.execAdcIzy zp s
  | .sbcImm v => Sys2Proof.Machine.execSbcImm v s
  | .sbcZp zp => Sys2Proof.Machine.execSbcZp zp s
  | .sbcZpx zp => Sys2Proof.Machine.execSbcZpx zp s
  | .sbcAbs addr => Sys2Proof.Machine.execSbcAbs addr s
  | .sbcAbx addr => Sys2Proof.Machine.execSbcAbx addr s
  | .sbcAby addr => Sys2Proof.Machine.execSbcAby addr s
  | .sbcIzx zp => Sys2Proof.Machine.execSbcIzx zp s
  | .sbcIzy zp => Sys2Proof.Machine.execSbcIzy zp s
  | .andImm v => Sys2Proof.Machine.execAndImm v s
  | .andZp zp => Sys2Proof.Machine.execAndZp zp s
  | .andZpx zp => Sys2Proof.Machine.execAndZpx zp s
  | .andAbs addr => Sys2Proof.Machine.execAndAbs addr s
  | .andAbx addr => Sys2Proof.Machine.execAndAbx addr s
  | .andAby addr => Sys2Proof.Machine.execAndAby addr s
  | .andIzx zp => Sys2Proof.Machine.execAndIzx zp s
  | .andIzy zp => Sys2Proof.Machine.execAndIzy zp s
  | .oraImm v => Sys2Proof.Machine.execOraImm v s
  | .oraZp zp => Sys2Proof.Machine.execOraZp zp s
  | .oraZpx zp => Sys2Proof.Machine.execOraZpx zp s
  | .oraAbs addr => Sys2Proof.Machine.execOraAbs addr s
  | .oraAbx addr => Sys2Proof.Machine.execOraAbx addr s
  | .oraAby addr => Sys2Proof.Machine.execOraAby addr s
  | .oraIzx zp => Sys2Proof.Machine.execOraIzx zp s
  | .oraIzy zp => Sys2Proof.Machine.execOraIzy zp s
  | .eorImm v => Sys2Proof.Machine.execEorImm v s
  | .eorZp zp => Sys2Proof.Machine.execEorZp zp s
  | .eorZpx zp => Sys2Proof.Machine.execEorZpx zp s
  | .eorAbs addr => Sys2Proof.Machine.execEorAbs addr s
  | .eorAbx addr => Sys2Proof.Machine.execEorAbx addr s
  | .eorAby addr => Sys2Proof.Machine.execEorAby addr s
  | .eorIzx zp => Sys2Proof.Machine.execEorIzx zp s
  | .eorIzy zp => Sys2Proof.Machine.execEorIzy zp s
  | .aslAcc => Sys2Proof.Machine.execAslAcc s
  | .aslZp zp => Sys2Proof.Machine.execAslZp zp s
  | .aslZpx zp => Sys2Proof.Machine.execAslZpx zp s
  | .aslAbs addr => Sys2Proof.Machine.execAslAbs addr s
  | .aslAbx addr => Sys2Proof.Machine.execAslAbx addr s
  | .lsrAcc => Sys2Proof.Machine.execLsrAcc s
  | .lsrZp zp => Sys2Proof.Machine.execLsrZp zp s
  | .lsrZpx zp => Sys2Proof.Machine.execLsrZpx zp s
  | .lsrAbs addr => Sys2Proof.Machine.execLsrAbs addr s
  | .lsrAbx addr => Sys2Proof.Machine.execLsrAbx addr s
  | .rolAcc => Sys2Proof.Machine.execRolAcc s
  | .rolZp zp => Sys2Proof.Machine.execRolZp zp s
  | .rolZpx zp => Sys2Proof.Machine.execRolZpx zp s
  | .rolAbs addr => Sys2Proof.Machine.execRolAbs addr s
  | .rolAbx addr => Sys2Proof.Machine.execRolAbx addr s
  | .rorAcc => Sys2Proof.Machine.execRorAcc s
  | .rorZp zp => Sys2Proof.Machine.execRorZp zp s
  | .rorZpx zp => Sys2Proof.Machine.execRorZpx zp s
  | .rorAbs addr => Sys2Proof.Machine.execRorAbs addr s
  | .rorAbx addr => Sys2Proof.Machine.execRorAbx addr s
  | .incZp zp => Sys2Proof.Machine.execIncZp zp s
  | .incZpx zp => Sys2Proof.Machine.execIncZpx zp s
  | .incAbs addr => Sys2Proof.Machine.execIncAbs addr s
  | .incAbx addr => Sys2Proof.Machine.execIncAbx addr s
  | .decZp zp => Sys2Proof.Machine.execDecZp zp s
  | .decZpx zp => Sys2Proof.Machine.execDecZpx zp s
  | .decAbs addr => Sys2Proof.Machine.execDecAbs addr s
  | .decAbx addr => Sys2Proof.Machine.execDecAbx addr s
  | .inx => Sys2Proof.Machine.execInx s
  | .iny => Sys2Proof.Machine.execIny s
  | .dex => Sys2Proof.Machine.execDex s
  | .dey => Sys2Proof.Machine.execDey s
  | .cmpImm v => Sys2Proof.Machine.execCmpImm v s
  | .cmpZp zp => Sys2Proof.Machine.execCmpZp zp s
  | .cmpZpx zp => Sys2Proof.Machine.execCmpZpx zp s
  | .cmpAbs addr => Sys2Proof.Machine.execCmpAbs addr s
  | .cmpAbx addr => Sys2Proof.Machine.execCmpAbx addr s
  | .cmpAby addr => Sys2Proof.Machine.execCmpAby addr s
  | .cmpIzx zp => Sys2Proof.Machine.execCmpIzx zp s
  | .cmpIzy zp => Sys2Proof.Machine.execCmpIzy zp s
  | .cpxImm v => Sys2Proof.Machine.execCpxImm v s
  | .cpxZp zp => Sys2Proof.Machine.execCpxZp zp s
  | .cpxAbs addr => Sys2Proof.Machine.execCpxAbs addr s
  | .cpyImm v => Sys2Proof.Machine.execCpyImm v s
  | .cpyZp zp => Sys2Proof.Machine.execCpyZp zp s
  | .cpyAbs addr => Sys2Proof.Machine.execCpyAbs addr s
  | .bitZp zp => Sys2Proof.Machine.execBitZp zp s
  | .bitAbs addr => Sys2Proof.Machine.execBitAbs addr s
  | .bcc off => Sys2Proof.Machine.execBcc off s
  | .bcs off => Sys2Proof.Machine.execBcs off s
  | .beq off => Sys2Proof.Machine.execBeq off s
  | .bne off => Sys2Proof.Machine.execBne off s
  | .bmi off => Sys2Proof.Machine.execBmi off s
  | .bpl off => Sys2Proof.Machine.execBpl off s
  | .bvc off => Sys2Proof.Machine.execBvc off s
  | .bvs off => Sys2Proof.Machine.execBvs off s
  | .jmpAbs addr => Sys2Proof.Machine.execJmpAbs addr s
  | .jmpInd ptr => Sys2Proof.Machine.execJmpInd ptr s
  | .jsr addr => Sys2Proof.Machine.execJsr addr s
  | .rts => Sys2Proof.Machine.execRts s
  | .pha => Sys2Proof.Machine.execPha s
  | .pla => Sys2Proof.Machine.execPla s
  | .php => Sys2Proof.Machine.execPhp s
  | .plp => Sys2Proof.Machine.execPlp s
  | .rti => Sys2Proof.Machine.execRti s
  | .clc => Sys2Proof.Machine.execClc s
  | .sec => Sys2Proof.Machine.execSec s
  | .cld => Sys2Proof.Machine.execCld s
  | .sed => Sys2Proof.Machine.execSed s
  | .cli => Sys2Proof.Machine.execCli s
  | .sei => Sys2Proof.Machine.execSei s
  | .clv => Sys2Proof.Machine.execClv s
  | .nop => Sys2Proof.Machine.execNop s
  | .brk => Sys2Proof.Machine.execBrk s

end Sys2Proof.Machine
end

