-- ==== Sys2Proof/WellFormed.lean ====
section
/-!
DEFINITION. Which (mnemonic, format) pairs exist (`30_encoding.md` R63, R64): a mnemonic has exactly the
formats listed with its rule; every other pair "does not exist and has no byte". The operand fields are
typed by their widths, so the pair is all there is to check.
-/

namespace Sys2Proof

/-- The formats each mnemonic has, from the "Encodings" lines of the instruction rules (R100 to R199). -/
def formatsOf : Mnemonic → List Format
  | .LDA => [.imm, .zp, .zpx, .abs, .abx, .aby, .izx, .izy]
  | .LDX => [.imm, .zp, .zpy, .abs, .aby]
  | .LDY => [.imm, .zp, .zpx, .abs, .abx]
  | .STA => [.zp, .zpx, .abs, .abx, .aby, .izx, .izy]
  | .STX => [.zp, .zpy, .abs]
  | .STY => [.zp, .zpx, .abs]
  | .TAX => [.imp]
  | .TAY => [.imp]
  | .TXA => [.imp]
  | .TYA => [.imp]
  | .TSX => [.imp]
  | .TXS => [.imp]
  | .ADC => [.imm, .zp, .zpx, .abs, .abx, .aby, .izx, .izy]
  | .SBC => [.imm, .zp, .zpx, .abs, .abx, .aby, .izx, .izy]
  | .AND => [.imm, .zp, .zpx, .abs, .abx, .aby, .izx, .izy]
  | .ORA => [.imm, .zp, .zpx, .abs, .abx, .aby, .izx, .izy]
  | .EOR => [.imm, .zp, .zpx, .abs, .abx, .aby, .izx, .izy]
  | .ASL => [.acc, .zp, .zpx, .abs, .abx]
  | .LSR => [.acc, .zp, .zpx, .abs, .abx]
  | .ROL => [.acc, .zp, .zpx, .abs, .abx]
  | .ROR => [.acc, .zp, .zpx, .abs, .abx]
  | .INC => [.zp, .zpx, .abs, .abx]
  | .DEC => [.zp, .zpx, .abs, .abx]
  | .INX => [.imp]
  | .INY => [.imp]
  | .DEX => [.imp]
  | .DEY => [.imp]
  | .CMP => [.imm, .zp, .zpx, .abs, .abx, .aby, .izx, .izy]
  | .CPX => [.imm, .zp, .abs]
  | .CPY => [.imm, .zp, .abs]
  | .BIT => [.zp, .abs]
  | .BCC => [.rel]
  | .BCS => [.rel]
  | .BEQ => [.rel]
  | .BNE => [.rel]
  | .BMI => [.rel]
  | .BPL => [.rel]
  | .BVC => [.rel]
  | .BVS => [.rel]
  | .JMP => [.abs, .ind]
  | .JSR => [.abs]
  | .RTS => [.imp]
  | .PHA => [.imp]
  | .PLA => [.imp]
  | .PHP => [.imp]
  | .PLP => [.imp]
  | .RTI => [.imp]
  | .CLC => [.imp]
  | .SEC => [.imp]
  | .CLD => [.imp]
  | .SED => [.imp]
  | .CLI => [.imp]
  | .SEI => [.imp]
  | .CLV => [.imp]
  | .NOP => [.imp]
  | .BRK => [.imp]

/-- The pair of a mnemonic and an operand is one of the 151 pairs of the opcode table (R63). -/
def wellFormedPair (m : Mnemonic) (o : Operand) : Bool := (formatsOf m).contains o.format

/-- An instruction is well formed when its mnemonic has its format. -/
def Instr.wellFormed (i : Instr) : Bool := wellFormedPair i.mnemonic i.operand

end Sys2Proof
end

