-- ==== Sys2Proof/Decode.lean ====
section
/-!
DEFINITION. The decoder, total on any bytes and rejecting by name, and the encoder (`30_encoding.md` R60 to
R66). The decoder is written from the specification's first table of R64 (row = high nibble, column = low
nibble), the encoder from its second (mnemonic by format): the two state the same 151 assignments.
-/

namespace Sys2Proof

/-- Why bytes do not decode. -/
inductive DecodeReject where
  /-- No byte was given. -/
  | noBytes
  /-- The opcode byte is one of the 105 illegal bytes (R65). -/
  | illegalOpcode (byte : Byte)
  /-- The opcode byte is legal and an operand byte is missing (R60). -/
  | missingOperandByte (byte : Byte)
  deriving DecidableEq, Repr

/-- Row 0x of the opcode map (R64). -/
def opcodeRow0 : List (Option (Mnemonic × Format)) := [
  some (.BRK, .imp), some (.ORA, .izx), none, none,
  none, some (.ORA, .zp), some (.ASL, .zp), none,
  some (.PHP, .imp), some (.ORA, .imm), some (.ASL, .acc), none,
  none, some (.ORA, .abs), some (.ASL, .abs), none]
/-- Row 1x of the opcode map (R64). -/
def opcodeRow1 : List (Option (Mnemonic × Format)) := [
  some (.BPL, .rel), some (.ORA, .izy), none, none,
  none, some (.ORA, .zpx), some (.ASL, .zpx), none,
  some (.CLC, .imp), some (.ORA, .aby), none, none,
  none, some (.ORA, .abx), some (.ASL, .abx), none]
/-- Row 2x of the opcode map (R64). -/
def opcodeRow2 : List (Option (Mnemonic × Format)) := [
  some (.JSR, .abs), some (.AND, .izx), none, none,
  some (.BIT, .zp), some (.AND, .zp), some (.ROL, .zp), none,
  some (.PLP, .imp), some (.AND, .imm), some (.ROL, .acc), none,
  some (.BIT, .abs), some (.AND, .abs), some (.ROL, .abs), none]
/-- Row 3x of the opcode map (R64). -/
def opcodeRow3 : List (Option (Mnemonic × Format)) := [
  some (.BMI, .rel), some (.AND, .izy), none, none,
  none, some (.AND, .zpx), some (.ROL, .zpx), none,
  some (.SEC, .imp), some (.AND, .aby), none, none,
  none, some (.AND, .abx), some (.ROL, .abx), none]
/-- Row 4x of the opcode map (R64). -/
def opcodeRow4 : List (Option (Mnemonic × Format)) := [
  some (.RTI, .imp), some (.EOR, .izx), none, none,
  none, some (.EOR, .zp), some (.LSR, .zp), none,
  some (.PHA, .imp), some (.EOR, .imm), some (.LSR, .acc), none,
  some (.JMP, .abs), some (.EOR, .abs), some (.LSR, .abs), none]
/-- Row 5x of the opcode map (R64). -/
def opcodeRow5 : List (Option (Mnemonic × Format)) := [
  some (.BVC, .rel), some (.EOR, .izy), none, none,
  none, some (.EOR, .zpx), some (.LSR, .zpx), none,
  some (.CLI, .imp), some (.EOR, .aby), none, none,
  none, some (.EOR, .abx), some (.LSR, .abx), none]
/-- Row 6x of the opcode map (R64). -/
def opcodeRow6 : List (Option (Mnemonic × Format)) := [
  some (.RTS, .imp), some (.ADC, .izx), none, none,
  none, some (.ADC, .zp), some (.ROR, .zp), none,
  some (.PLA, .imp), some (.ADC, .imm), some (.ROR, .acc), none,
  some (.JMP, .ind), some (.ADC, .abs), some (.ROR, .abs), none]
/-- Row 7x of the opcode map (R64). -/
def opcodeRow7 : List (Option (Mnemonic × Format)) := [
  some (.BVS, .rel), some (.ADC, .izy), none, none,
  none, some (.ADC, .zpx), some (.ROR, .zpx), none,
  some (.SEI, .imp), some (.ADC, .aby), none, none,
  none, some (.ADC, .abx), some (.ROR, .abx), none]
/-- Row 8x of the opcode map (R64). -/
def opcodeRow8 : List (Option (Mnemonic × Format)) := [
  none, some (.STA, .izx), none, none,
  some (.STY, .zp), some (.STA, .zp), some (.STX, .zp), none,
  some (.DEY, .imp), none, some (.TXA, .imp), none,
  some (.STY, .abs), some (.STA, .abs), some (.STX, .abs), none]
/-- Row 9x of the opcode map (R64). -/
def opcodeRow9 : List (Option (Mnemonic × Format)) := [
  some (.BCC, .rel), some (.STA, .izy), none, none,
  some (.STY, .zpx), some (.STA, .zpx), some (.STX, .zpy), none,
  some (.TYA, .imp), some (.STA, .aby), some (.TXS, .imp), none,
  none, some (.STA, .abx), none, none]
/-- Row Ax of the opcode map (R64). -/
def opcodeRowA : List (Option (Mnemonic × Format)) := [
  some (.LDY, .imm), some (.LDA, .izx), some (.LDX, .imm), none,
  some (.LDY, .zp), some (.LDA, .zp), some (.LDX, .zp), none,
  some (.TAY, .imp), some (.LDA, .imm), some (.TAX, .imp), none,
  some (.LDY, .abs), some (.LDA, .abs), some (.LDX, .abs), none]
/-- Row Bx of the opcode map (R64). -/
def opcodeRowB : List (Option (Mnemonic × Format)) := [
  some (.BCS, .rel), some (.LDA, .izy), none, none,
  some (.LDY, .zpx), some (.LDA, .zpx), some (.LDX, .zpy), none,
  some (.CLV, .imp), some (.LDA, .aby), some (.TSX, .imp), none,
  some (.LDY, .abx), some (.LDA, .abx), some (.LDX, .aby), none]
/-- Row Cx of the opcode map (R64). -/
def opcodeRowC : List (Option (Mnemonic × Format)) := [
  some (.CPY, .imm), some (.CMP, .izx), none, none,
  some (.CPY, .zp), some (.CMP, .zp), some (.DEC, .zp), none,
  some (.INY, .imp), some (.CMP, .imm), some (.DEX, .imp), none,
  some (.CPY, .abs), some (.CMP, .abs), some (.DEC, .abs), none]
/-- Row Dx of the opcode map (R64). -/
def opcodeRowD : List (Option (Mnemonic × Format)) := [
  some (.BNE, .rel), some (.CMP, .izy), none, none,
  none, some (.CMP, .zpx), some (.DEC, .zpx), none,
  some (.CLD, .imp), some (.CMP, .aby), none, none,
  none, some (.CMP, .abx), some (.DEC, .abx), none]
/-- Row Ex of the opcode map (R64). -/
def opcodeRowE : List (Option (Mnemonic × Format)) := [
  some (.CPX, .imm), some (.SBC, .izx), none, none,
  some (.CPX, .zp), some (.SBC, .zp), some (.INC, .zp), none,
  some (.INX, .imp), some (.SBC, .imm), some (.NOP, .imp), none,
  some (.CPX, .abs), some (.SBC, .abs), some (.INC, .abs), none]
/-- Row Fx of the opcode map (R64). -/
def opcodeRowF : List (Option (Mnemonic × Format)) := [
  some (.BEQ, .rel), some (.SBC, .izy), none, none,
  none, some (.SBC, .zpx), some (.INC, .zpx), none,
  some (.SED, .imp), some (.SBC, .aby), none, none,
  none, some (.SBC, .abx), some (.INC, .abx), none]

/-- The opcode map (R64): row `h` holds the bytes whose high nibble is `h`. -/
def opcodeMap : List (List (Option (Mnemonic × Format))) :=
  [opcodeRow0, opcodeRow1, opcodeRow2, opcodeRow3, opcodeRow4, opcodeRow5, opcodeRow6, opcodeRow7] ++
  [opcodeRow8, opcodeRow9, opcodeRowA, opcodeRowB, opcodeRowC, opcodeRowD, opcodeRowE, opcodeRowF]

/-- `decode(byte)` of R63: the mnemonic and format of an opcode byte, `none` for an illegal byte (R65). -/
def decodeByte (b : Byte) : Option (Mnemonic × Format) :=
  (opcodeMap.getD (b.toNat / 16) []).getD (b.toNat % 16) none

/-- How many operand bytes follow an opcode byte; 0 for an illegal byte, whose operands are never read (R60, R201). -/
def operandCount (b : Byte) : Nat :=
  match decodeByte b with
  | some (_, f) => f.operandLength
  | none => 0

/-- The operand of a format from the bytes after the opcode, low byte first (R61, R62), and the bytes left over. -/
def takeOperand : Format → List Byte → Option (Operand × List Byte)
  | .imp, r => some (.implied, r)
  | .acc, r => some (.accumulator, r)
  | .imm, b :: r => some (.immediate b, r)
  | .zp, b :: r => some (.memory (.zp b), r)
  | .zpx, b :: r => some (.memory (.zpx b), r)
  | .zpy, b :: r => some (.memory (.zpy b), r)
  | .abs, lo :: hi :: r => some (.memory (.abs (join16 hi lo)), r)
  | .abx, lo :: hi :: r => some (.memory (.abx (join16 hi lo)), r)
  | .aby, lo :: hi :: r => some (.memory (.aby (join16 hi lo)), r)
  | .ind, lo :: hi :: r => some (.memory (.ind (join16 hi lo)), r)
  | .izx, b :: r => some (.memory (.izx b), r)
  | .izy, b :: r => some (.memory (.izy b), r)
  | .rel, b :: r => some (.relative b, r)
  | _, _ => none

/-- The instruction of a mnemonic and an operand, where the pair exists (R64). -/
def assemble (m : Mnemonic) (o : Operand) : Option Instr :=
  match m with
  | .LDA =>
    match o with
    | .immediate v => some (Instr.ldaImm v)
    | .memory (.zp zp) => some (Instr.ldaZp zp)
    | .memory (.zpx zp) => some (Instr.ldaZpx zp)
    | .memory (.abs addr) => some (Instr.ldaAbs addr)
    | .memory (.abx addr) => some (Instr.ldaAbx addr)
    | .memory (.aby addr) => some (Instr.ldaAby addr)
    | .memory (.izx zp) => some (Instr.ldaIzx zp)
    | .memory (.izy zp) => some (Instr.ldaIzy zp)
    | _ => none
  | .LDX =>
    match o with
    | .immediate v => some (Instr.ldxImm v)
    | .memory (.zp zp) => some (Instr.ldxZp zp)
    | .memory (.zpy zp) => some (Instr.ldxZpy zp)
    | .memory (.abs addr) => some (Instr.ldxAbs addr)
    | .memory (.aby addr) => some (Instr.ldxAby addr)
    | _ => none
  | .LDY =>
    match o with
    | .immediate v => some (Instr.ldyImm v)
    | .memory (.zp zp) => some (Instr.ldyZp zp)
    | .memory (.zpx zp) => some (Instr.ldyZpx zp)
    | .memory (.abs addr) => some (Instr.ldyAbs addr)
    | .memory (.abx addr) => some (Instr.ldyAbx addr)
    | _ => none
  | .STA =>
    match o with
    | .memory (.zp zp) => some (Instr.staZp zp)
    | .memory (.zpx zp) => some (Instr.staZpx zp)
    | .memory (.abs addr) => some (Instr.staAbs addr)
    | .memory (.abx addr) => some (Instr.staAbx addr)
    | .memory (.aby addr) => some (Instr.staAby addr)
    | .memory (.izx zp) => some (Instr.staIzx zp)
    | .memory (.izy zp) => some (Instr.staIzy zp)
    | _ => none
  | .STX =>
    match o with
    | .memory (.zp zp) => some (Instr.stxZp zp)
    | .memory (.zpy zp) => some (Instr.stxZpy zp)
    | .memory (.abs addr) => some (Instr.stxAbs addr)
    | _ => none
  | .STY =>
    match o with
    | .memory (.zp zp) => some (Instr.styZp zp)
    | .memory (.zpx zp) => some (Instr.styZpx zp)
    | .memory (.abs addr) => some (Instr.styAbs addr)
    | _ => none
  | .TAX =>
    match o with
    | .implied => some Instr.tax
    | _ => none
  | .TAY =>
    match o with
    | .implied => some Instr.tay
    | _ => none
  | .TXA =>
    match o with
    | .implied => some Instr.txa
    | _ => none
  | .TYA =>
    match o with
    | .implied => some Instr.tya
    | _ => none
  | .TSX =>
    match o with
    | .implied => some Instr.tsx
    | _ => none
  | .TXS =>
    match o with
    | .implied => some Instr.txs
    | _ => none
  | .ADC =>
    match o with
    | .immediate v => some (Instr.adcImm v)
    | .memory (.zp zp) => some (Instr.adcZp zp)
    | .memory (.zpx zp) => some (Instr.adcZpx zp)
    | .memory (.abs addr) => some (Instr.adcAbs addr)
    | .memory (.abx addr) => some (Instr.adcAbx addr)
    | .memory (.aby addr) => some (Instr.adcAby addr)
    | .memory (.izx zp) => some (Instr.adcIzx zp)
    | .memory (.izy zp) => some (Instr.adcIzy zp)
    | _ => none
  | .SBC =>
    match o with
    | .immediate v => some (Instr.sbcImm v)
    | .memory (.zp zp) => some (Instr.sbcZp zp)
    | .memory (.zpx zp) => some (Instr.sbcZpx zp)
    | .memory (.abs addr) => some (Instr.sbcAbs addr)
    | .memory (.abx addr) => some (Instr.sbcAbx addr)
    | .memory (.aby addr) => some (Instr.sbcAby addr)
    | .memory (.izx zp) => some (Instr.sbcIzx zp)
    | .memory (.izy zp) => some (Instr.sbcIzy zp)
    | _ => none
  | .AND =>
    match o with
    | .immediate v => some (Instr.andImm v)
    | .memory (.zp zp) => some (Instr.andZp zp)
    | .memory (.zpx zp) => some (Instr.andZpx zp)
    | .memory (.abs addr) => some (Instr.andAbs addr)
    | .memory (.abx addr) => some (Instr.andAbx addr)
    | .memory (.aby addr) => some (Instr.andAby addr)
    | .memory (.izx zp) => some (Instr.andIzx zp)
    | .memory (.izy zp) => some (Instr.andIzy zp)
    | _ => none
  | .ORA =>
    match o with
    | .immediate v => some (Instr.oraImm v)
    | .memory (.zp zp) => some (Instr.oraZp zp)
    | .memory (.zpx zp) => some (Instr.oraZpx zp)
    | .memory (.abs addr) => some (Instr.oraAbs addr)
    | .memory (.abx addr) => some (Instr.oraAbx addr)
    | .memory (.aby addr) => some (Instr.oraAby addr)
    | .memory (.izx zp) => some (Instr.oraIzx zp)
    | .memory (.izy zp) => some (Instr.oraIzy zp)
    | _ => none
  | .EOR =>
    match o with
    | .immediate v => some (Instr.eorImm v)
    | .memory (.zp zp) => some (Instr.eorZp zp)
    | .memory (.zpx zp) => some (Instr.eorZpx zp)
    | .memory (.abs addr) => some (Instr.eorAbs addr)
    | .memory (.abx addr) => some (Instr.eorAbx addr)
    | .memory (.aby addr) => some (Instr.eorAby addr)
    | .memory (.izx zp) => some (Instr.eorIzx zp)
    | .memory (.izy zp) => some (Instr.eorIzy zp)
    | _ => none
  | .ASL =>
    match o with
    | .accumulator => some Instr.aslAcc
    | .memory (.zp zp) => some (Instr.aslZp zp)
    | .memory (.zpx zp) => some (Instr.aslZpx zp)
    | .memory (.abs addr) => some (Instr.aslAbs addr)
    | .memory (.abx addr) => some (Instr.aslAbx addr)
    | _ => none
  | .LSR =>
    match o with
    | .accumulator => some Instr.lsrAcc
    | .memory (.zp zp) => some (Instr.lsrZp zp)
    | .memory (.zpx zp) => some (Instr.lsrZpx zp)
    | .memory (.abs addr) => some (Instr.lsrAbs addr)
    | .memory (.abx addr) => some (Instr.lsrAbx addr)
    | _ => none
  | .ROL =>
    match o with
    | .accumulator => some Instr.rolAcc
    | .memory (.zp zp) => some (Instr.rolZp zp)
    | .memory (.zpx zp) => some (Instr.rolZpx zp)
    | .memory (.abs addr) => some (Instr.rolAbs addr)
    | .memory (.abx addr) => some (Instr.rolAbx addr)
    | _ => none
  | .ROR =>
    match o with
    | .accumulator => some Instr.rorAcc
    | .memory (.zp zp) => some (Instr.rorZp zp)
    | .memory (.zpx zp) => some (Instr.rorZpx zp)
    | .memory (.abs addr) => some (Instr.rorAbs addr)
    | .memory (.abx addr) => some (Instr.rorAbx addr)
    | _ => none
  | .INC =>
    match o with
    | .memory (.zp zp) => some (Instr.incZp zp)
    | .memory (.zpx zp) => some (Instr.incZpx zp)
    | .memory (.abs addr) => some (Instr.incAbs addr)
    | .memory (.abx addr) => some (Instr.incAbx addr)
    | _ => none
  | .DEC =>
    match o with
    | .memory (.zp zp) => some (Instr.decZp zp)
    | .memory (.zpx zp) => some (Instr.decZpx zp)
    | .memory (.abs addr) => some (Instr.decAbs addr)
    | .memory (.abx addr) => some (Instr.decAbx addr)
    | _ => none
  | .INX =>
    match o with
    | .implied => some Instr.inx
    | _ => none
  | .INY =>
    match o with
    | .implied => some Instr.iny
    | _ => none
  | .DEX =>
    match o with
    | .implied => some Instr.dex
    | _ => none
  | .DEY =>
    match o with
    | .implied => some Instr.dey
    | _ => none
  | .CMP =>
    match o with
    | .immediate v => some (Instr.cmpImm v)
    | .memory (.zp zp) => some (Instr.cmpZp zp)
    | .memory (.zpx zp) => some (Instr.cmpZpx zp)
    | .memory (.abs addr) => some (Instr.cmpAbs addr)
    | .memory (.abx addr) => some (Instr.cmpAbx addr)
    | .memory (.aby addr) => some (Instr.cmpAby addr)
    | .memory (.izx zp) => some (Instr.cmpIzx zp)
    | .memory (.izy zp) => some (Instr.cmpIzy zp)
    | _ => none
  | .CPX =>
    match o with
    | .immediate v => some (Instr.cpxImm v)
    | .memory (.zp zp) => some (Instr.cpxZp zp)
    | .memory (.abs addr) => some (Instr.cpxAbs addr)
    | _ => none
  | .CPY =>
    match o with
    | .immediate v => some (Instr.cpyImm v)
    | .memory (.zp zp) => some (Instr.cpyZp zp)
    | .memory (.abs addr) => some (Instr.cpyAbs addr)
    | _ => none
  | .BIT =>
    match o with
    | .memory (.zp zp) => some (Instr.bitZp zp)
    | .memory (.abs addr) => some (Instr.bitAbs addr)
    | _ => none
  | .BCC =>
    match o with
    | .relative off => some (Instr.bcc off)
    | _ => none
  | .BCS =>
    match o with
    | .relative off => some (Instr.bcs off)
    | _ => none
  | .BEQ =>
    match o with
    | .relative off => some (Instr.beq off)
    | _ => none
  | .BNE =>
    match o with
    | .relative off => some (Instr.bne off)
    | _ => none
  | .BMI =>
    match o with
    | .relative off => some (Instr.bmi off)
    | _ => none
  | .BPL =>
    match o with
    | .relative off => some (Instr.bpl off)
    | _ => none
  | .BVC =>
    match o with
    | .relative off => some (Instr.bvc off)
    | _ => none
  | .BVS =>
    match o with
    | .relative off => some (Instr.bvs off)
    | _ => none
  | .JMP =>
    match o with
    | .memory (.abs addr) => some (Instr.jmpAbs addr)
    | .memory (.ind ptr) => some (Instr.jmpInd ptr)
    | _ => none
  | .JSR =>
    match o with
    | .memory (.abs addr) => some (Instr.jsr addr)
    | _ => none
  | .RTS =>
    match o with
    | .implied => some Instr.rts
    | _ => none
  | .PHA =>
    match o with
    | .implied => some Instr.pha
    | _ => none
  | .PLA =>
    match o with
    | .implied => some Instr.pla
    | _ => none
  | .PHP =>
    match o with
    | .implied => some Instr.php
    | _ => none
  | .PLP =>
    match o with
    | .implied => some Instr.plp
    | _ => none
  | .RTI =>
    match o with
    | .implied => some Instr.rti
    | _ => none
  | .CLC =>
    match o with
    | .implied => some Instr.clc
    | _ => none
  | .SEC =>
    match o with
    | .implied => some Instr.sec
    | _ => none
  | .CLD =>
    match o with
    | .implied => some Instr.cld
    | _ => none
  | .SED =>
    match o with
    | .implied => some Instr.sed
    | _ => none
  | .CLI =>
    match o with
    | .implied => some Instr.cli
    | _ => none
  | .SEI =>
    match o with
    | .implied => some Instr.sei
    | _ => none
  | .CLV =>
    match o with
    | .implied => some Instr.clv
    | _ => none
  | .NOP =>
    match o with
    | .implied => some Instr.nop
    | _ => none
  | .BRK =>
    match o with
    | .implied => some Instr.brk
    | _ => none

/-- Decode one instruction from the front of a list of bytes, and give the bytes after it (R60 to R63). -/
def decode : List Byte → Except DecodeReject (Instr × List Byte)
  | [] => .error .noBytes
  | b :: rest =>
    match decodeByte b with
    | none => .error (.illegalOpcode b)
    | some (m, f) =>
      match takeOperand f rest with
      | none => .error (.missingOperandByte b)
      | some (o, rest') =>
        match assemble m o with
        | some i => .ok (i, rest')
        | none => .error (.illegalOpcode b)

/-- The opcode byte of each format of a mnemonic (R64, second table). -/
def opcodesOf : Mnemonic → List (Format × Byte)
  | .LDA => [(.imm, 0xA9), (.zp, 0xA5), (.zpx, 0xB5), (.abs, 0xAD), (.abx, 0xBD), (.aby, 0xB9), (.izx, 0xA1), (.izy, 0xB1)]
  | .LDX => [(.imm, 0xA2), (.zp, 0xA6), (.zpy, 0xB6), (.abs, 0xAE), (.aby, 0xBE)]
  | .LDY => [(.imm, 0xA0), (.zp, 0xA4), (.zpx, 0xB4), (.abs, 0xAC), (.abx, 0xBC)]
  | .STA => [(.zp, 0x85), (.zpx, 0x95), (.abs, 0x8D), (.abx, 0x9D), (.aby, 0x99), (.izx, 0x81), (.izy, 0x91)]
  | .STX => [(.zp, 0x86), (.zpy, 0x96), (.abs, 0x8E)]
  | .STY => [(.zp, 0x84), (.zpx, 0x94), (.abs, 0x8C)]
  | .TAX => [(.imp, 0xAA)]
  | .TAY => [(.imp, 0xA8)]
  | .TXA => [(.imp, 0x8A)]
  | .TYA => [(.imp, 0x98)]
  | .TSX => [(.imp, 0xBA)]
  | .TXS => [(.imp, 0x9A)]
  | .ADC => [(.imm, 0x69), (.zp, 0x65), (.zpx, 0x75), (.abs, 0x6D), (.abx, 0x7D), (.aby, 0x79), (.izx, 0x61), (.izy, 0x71)]
  | .SBC => [(.imm, 0xE9), (.zp, 0xE5), (.zpx, 0xF5), (.abs, 0xED), (.abx, 0xFD), (.aby, 0xF9), (.izx, 0xE1), (.izy, 0xF1)]
  | .AND => [(.imm, 0x29), (.zp, 0x25), (.zpx, 0x35), (.abs, 0x2D), (.abx, 0x3D), (.aby, 0x39), (.izx, 0x21), (.izy, 0x31)]
  | .ORA => [(.imm, 0x09), (.zp, 0x05), (.zpx, 0x15), (.abs, 0x0D), (.abx, 0x1D), (.aby, 0x19), (.izx, 0x01), (.izy, 0x11)]
  | .EOR => [(.imm, 0x49), (.zp, 0x45), (.zpx, 0x55), (.abs, 0x4D), (.abx, 0x5D), (.aby, 0x59), (.izx, 0x41), (.izy, 0x51)]
  | .ASL => [(.acc, 0x0A), (.zp, 0x06), (.zpx, 0x16), (.abs, 0x0E), (.abx, 0x1E)]
  | .LSR => [(.acc, 0x4A), (.zp, 0x46), (.zpx, 0x56), (.abs, 0x4E), (.abx, 0x5E)]
  | .ROL => [(.acc, 0x2A), (.zp, 0x26), (.zpx, 0x36), (.abs, 0x2E), (.abx, 0x3E)]
  | .ROR => [(.acc, 0x6A), (.zp, 0x66), (.zpx, 0x76), (.abs, 0x6E), (.abx, 0x7E)]
  | .INC => [(.zp, 0xE6), (.zpx, 0xF6), (.abs, 0xEE), (.abx, 0xFE)]
  | .DEC => [(.zp, 0xC6), (.zpx, 0xD6), (.abs, 0xCE), (.abx, 0xDE)]
  | .INX => [(.imp, 0xE8)]
  | .INY => [(.imp, 0xC8)]
  | .DEX => [(.imp, 0xCA)]
  | .DEY => [(.imp, 0x88)]
  | .CMP => [(.imm, 0xC9), (.zp, 0xC5), (.zpx, 0xD5), (.abs, 0xCD), (.abx, 0xDD), (.aby, 0xD9), (.izx, 0xC1), (.izy, 0xD1)]
  | .CPX => [(.imm, 0xE0), (.zp, 0xE4), (.abs, 0xEC)]
  | .CPY => [(.imm, 0xC0), (.zp, 0xC4), (.abs, 0xCC)]
  | .BIT => [(.zp, 0x24), (.abs, 0x2C)]
  | .BCC => [(.rel, 0x90)]
  | .BCS => [(.rel, 0xB0)]
  | .BEQ => [(.rel, 0xF0)]
  | .BNE => [(.rel, 0xD0)]
  | .BMI => [(.rel, 0x30)]
  | .BPL => [(.rel, 0x10)]
  | .BVC => [(.rel, 0x50)]
  | .BVS => [(.rel, 0x70)]
  | .JMP => [(.abs, 0x4C), (.ind, 0x6C)]
  | .JSR => [(.abs, 0x20)]
  | .RTS => [(.imp, 0x60)]
  | .PHA => [(.imp, 0x48)]
  | .PLA => [(.imp, 0x68)]
  | .PHP => [(.imp, 0x08)]
  | .PLP => [(.imp, 0x28)]
  | .RTI => [(.imp, 0x40)]
  | .CLC => [(.imp, 0x18)]
  | .SEC => [(.imp, 0x38)]
  | .CLD => [(.imp, 0xD8)]
  | .SED => [(.imp, 0xF8)]
  | .CLI => [(.imp, 0x58)]
  | .SEI => [(.imp, 0x78)]
  | .CLV => [(.imp, 0xB8)]
  | .NOP => [(.imp, 0xEA)]
  | .BRK => [(.imp, 0x00)]

/-- The opcode byte of a (mnemonic, format) pair, where the pair exists (R64). -/
def opcodeOf (m : Mnemonic) (f : Format) : Option Byte := (opcodesOf m).lookup f

/-- The operand bytes of a memory mode: one byte, or a 16-bit field low byte first (R61, R62). -/
def Mode.bytes : Mode → List Byte
  | .zp b | .zpx b | .zpy b | .izx b | .izy b => [b]
  | .abs w | .abx w | .aby w | .ind w => [lo8 w, hi8 w]

/-- The operand bytes of an operand (R61, R62). -/
def Operand.bytes : Operand → List Byte
  | .implied | .accumulator => []
  | .immediate b | .relative b => [b]
  | .memory m => m.bytes

/-- The bytes of an instruction: its opcode byte and its operand bytes (R60, R62). -/
def encode (i : Instr) : List Byte :=
  match opcodeOf i.mnemonic i.format with
  | some b => b :: i.operand.bytes
  | none => []

/-- The bytes, in the order the hardware stores them, of an instruction whose bits are `w`, bit 0 the least
significant bit of the opcode byte; bits from `nbits` up are 0. Three bytes, the longest instruction (R60). -/
def tableBytes (nbits w : Nat) : List Byte :=
  let v := w % 2 ^ nbits
  [BitVec.ofNat 8 v, BitVec.ofNat 8 (v / 256), BitVec.ofNat 8 (v / 65536)]

/-- The instruction the decoder reads from the bits `w` numbered as `spec/opcode_table.json` numbers them. -/
def decodeTableWord (nbits w : Nat) : Option Instr :=
  match decode (tableBytes nbits w) with
  | .ok (i, _) => some i
  | .error _ => none

end Sys2Proof
end

