-- ==== Sys2Proof/Machine/Fetch.lean ====
section
/-!
DEFINITION. Fetching and decoding the instruction at PC (`40_fetch_and_addressing.md` R80, R81, R96), and
placing an instruction where the next fetch reads it.
-/

namespace Sys2Proof.Machine

/-- Read `n` bytes at ascending addresses, in order (R62, R96). -/
def readBytes (s : State) : Word → Nat → Except FaultKind (List Byte)
  | _, 0 => .ok []
  | addr, n + 1 => do
    let b ← memRead s addr
    let rest ← readBytes s (addr + 1#16) n
    return b :: rest

/-- The fetch and decode of one step (R80): the instruction with PC after its opcode byte, or the state in which
fetching or decoding faulted. The opcode is read first and PC advanced; an illegal byte faults before any
operand byte is read (R201); the operand bytes are read next, in order (R96, log entry 2). -/
def fetchInstr (s : State) : Except State (Instr × State) :=
  match memRead s s.pc with
  | .error k => .error (s.raise k)
  | .ok b =>
    let s1 := s.advance 1
    match readBytes s1 s1.pc (operandCount b) with
    | .error k => .error (s1.raise k)
    | .ok operands =>
      match decode (b :: operands) with
      | .error _ => .error (s1.raise (.illegalOpcode b))
      | .ok (i, _) => .ok (i, s1)

/-- The region of an address holds bytes that a fetch reads back: RAM or PRG-ROM (R33, R36). -/
def holdsBytes (addr : Word) : Bool := region addr == .ram || region addr == .rom

/-- Put a byte into the cell an address names, RAM or ROM, from outside the machine (as `load` fills ROM, R49). -/
def pokeByte (s : State) (addr : Word) (v : Byte) : State :=
  match region addr with
  | .ram => { s with ram := s.ram.set (ramCell addr) v }
  | .rom => { s with rom := s.rom.set (romCell addr) v }
  | .ppu | .ignored => s

/-- Put bytes at ascending addresses. -/
def pokeBytes (s : State) : Word → List Byte → State
  | _, [] => s
  | addr, b :: rest => pokeBytes (pokeByte s addr b) (addr + 1#16) rest

/-- Put up to three bytes where the next step fetches: at PC; where those three addresses do not all hold bytes
(PC in or at the edge of the PPU or the ignored window) PC first moves to LOAD_BASE. The run state becomes
Running, since no step fetches otherwise (R80, log entry 7). -/
def placeAtPc (s : State) (bytes : List Byte) : State :=
  let pc :=
    if holdsBytes s.pc && holdsBytes (s.pc + 1#16) && holdsBytes (s.pc + 2#16) then s.pc else Config.loadBase
  pokeBytes { s with pc := pc, run := .running } pc bytes

end Sys2Proof.Machine
end

