-- ==== Sys2Proof/Machine/Step.lean ====
section
/-!
DEFINITION. One step of the core (`40_fetch_and_addressing.md` R80): fetch, decode, execute. No step exists
from Halted or Faulted (`00_scope.md` R7).
-/

namespace Sys2Proof.Machine

/-- One whole instruction (R7, R80). -/
def step (s : State) : Host.Outcome State Fault Refusal :=
  match s.run with
  | .halted => .fault .noStepHalted
  | .faulted k => .fault (.noStepFaulted k)
  | .running =>
    match fetchInstr s with
    | .error s1 => .next s1
    | .ok (i, s1) => exec i s1

/-- The state with the instruction whose bits are `w` placed where `step` fetches next (log entry 7). -/
def State.withFetchWord (s : State) (nbits w : Nat) : State := placeAtPc s (tableBytes nbits w)

end Sys2Proof.Machine
end

