-- ==== Sys2Proof/Machine/HostOps.lean ====
section
/-!
DEFINITION. The host's operations (`70_reset_and_hazards.md` R220 to R227): load, reset, run with an optional
hook, and load_and_run. They act on the state from outside, between instructions (R6).
-/

namespace Sys2Proof.Machine

/-- Write a byte string into successive ROM cells. -/
def fillRom (rom : Memory) : Nat → List Byte → Memory
  | _, [] => rom
  | k, b :: rest => fillRom (rom.set k b) (k + 1) rest

/-- The ROM after a load: the image from cell 0, then LOAD_BASE in the two cells of the reset vector (R221). -/
def loadedRom (rom : Memory) (program : List Byte) : Memory :=
  ((fillRom rom 0 program).set (romCell Config.resetVector) (lo8 Config.loadBase)).set
    (romCell Config.resetVector + 1) (hi8 Config.loadBase)

/-- `load(program)` (R221): the image, then the reset vector; an image longer than 0x7FFC bytes is refused and
nothing changes. These are not bus writes and raise no fault (R49). -/
def hostLoad (program : List Byte) (s : State) : Option State :=
  if program.length ≤ Config.maxImage then some { s with rom := loadedRom s.rom program } else none

/-- The reset vector as the ROM holds it: `{ROM[0x7FFD], ROM[0x7FFC]}` (R45, R222). -/
def vectorTarget (s : State) : Word :=
  join16 (s.rom.get (romCell Config.resetVector + 1)) (s.rom.get (romCell Config.resetVector))

/-- `reset()` (R222, R19): registers, flags, SP, PC and run; RAM, ROM and the log stay. It applies in every run
state. -/
def hostReset (s : State) : State :=
  { s with a := 0x00#8, x := 0x00#8, y := 0x00#8, p := Config.pReset, sp := Config.spReset,
           pc := vectorTarget s, run := .running }

/-- The initial states of the block (R220): a block created over any contents of the two memories, with an empty
log, then `load`, then `reset`. -/
def initial (ram rom : Memory) (program : List Byte) : Option State :=
  (hostLoad program { State.reset with ram := ram, rom := rom }).map hostReset

/-- A host hook (R224): from the state after an instruction, the RAM cells it writes and their values. Its type
lets it write RAM cells and nothing else. -/
abbrev Hook := State → List (BitVec 11 × Byte)

/-- Apply the RAM writes of a hook, in order. -/
def writeRamCells (s : State) : List (BitVec 11 × Byte) → State
  | [] => s
  | (c, v) :: rest => writeRamCells { s with ram := s.ram.set c.toNat v } rest

/-- The hook's call after an instruction: after every instruction that completes, BRK included, and not after one
that faults; no hook changes nothing (R223, R224). -/
def afterInstr (hook : Option Hook) (s : State) : State :=
  match s.run, hook with
  | .faulted _, _ => s
  | _, none => s
  | _, some h => writeRamCells s (h s)

/-- `run()` (R223) for at most `fuel` steps: step while Running, with the hook after each completed instruction.
`none` when the steps ran out (R227, log entry 9). -/
def hostRun (hook : Option Hook) : Nat → State → Option State
  | 0, s => if s.run = .running then none else some s
  | fuel + 1, s =>
    match step s with
    | .next t => hostRun hook fuel (afterInstr hook t)
    | .fault _ => some s
    | .refused _ => none

/-- `load_and_run(program)` (R225): load, reset, run, in that order; a refused image ends it. -/
def loadAndRun (hook : Option Hook) (fuel : Nat) (program : List Byte) (s : State) : Option State :=
  match hostLoad program s with
  | none => none
  | some loaded => hostRun hook fuel (hostReset loaded)

end Sys2Proof.Machine
end

