-- ==== Sys2Proof/Safety.lean ====
section
/-!
DEFINITION. The terms claims use: what an instruction changed and what it left (frames, read through the
model's own read of a flag, a register or a byte), the invariants of the state, and a safe run.
-/

namespace Sys2Proof.Machine

/-! ### Frames -/

/-- Every general register but those listed is as before. -/
def SameRegsBut (rs : List Reg) (s t : State) : Prop := ∀ r, r ∉ rs → t.reg r = s.reg r

/-- Every flag but those listed is as before. -/
def SameFlagsBut (fs : List Flag) (s t : State) : Prop := ∀ f, f ∉ fs → t.flag f = s.flag f

/-- Every byte of the address space reads as before: RAM, ROM and the windows between (R32). -/
def SameMemory (s t : State) : Prop := ∀ addr, memRead t addr = memRead s addr

/-- Two addresses name one RAM cell: both in the RAM window and equal modulo its 2 KiB (R33). -/
def Aliases (addr ea : Word) : Prop :=
  addr.toNat < 0x2000 ∧ ea.toNat < 0x2000 ∧ addr.toNat % 0x0800 = ea.toNat % 0x0800

/-- The address lies in the PPU register window, where every access faults (R34). -/
def InPpu (ea : Word) : Prop := 0x2000 ≤ ea.toNat ∧ ea.toNat < 0x4000

/-- The address lies in the PRG-ROM window (R36). -/
def InRom (ea : Word) : Prop := 0x8000 ≤ ea.toNat

/-- A fault of a read: UnsupportedRegion at an address of the PPU window (R202). -/
def PpuReadFault (k : FaultKind) : Prop := ∃ addr, InPpu addr ∧ k = .unsupportedRegion addr .read

/-- A write to this address completes: it lies in the RAM window or the ignored window (R32). -/
def Writable (ea : Word) : Prop := ea.toNat < 0x2000 ∨ (0x4000 ≤ ea.toNat ∧ ea.toNat < 0x8000)

/-- The whole effect of writing `v` at a writable address on memory and log: in the RAM window every alias of the
address reads as `v`, every other address as before, and nothing is logged (R33); in the ignored window every
address reads as before and the write is logged (R35). -/
def ByteStored (ea : Word) (v : Byte) (s t : State) : Prop :=
  (ea.toNat < 0x2000 →
    (∀ addr, Aliases addr ea → memRead t addr = .ok v) ∧
    (∀ addr, ¬ Aliases addr ea → memRead t addr = memRead s addr) ∧ t.log = s.log) ∧
  (0x4000 ≤ ea.toNat ∧ ea.toNat < 0x8000 → SameMemory s t ∧ t.log = s.log ++ [.ignoredWrite ea v])

/-- Nothing changed but the general registers `rs`, the flags `fs`, and PC, which advanced by `n` (R13). -/
def ChangesOnly (rs : List Reg) (fs : List Flag) (n : Nat) (s t : State) : Prop :=
  SameRegsBut rs s t ∧ SameFlagsBut fs s t ∧ SameMemory s t ∧ t.sp = s.sp ∧ t.run = s.run ∧ t.log = s.log ∧
  t.pc = s.pc + BitVec.ofNat 16 n

/-- `v` is written at `ea`, the flags `fs` may change, PC advanced by `n`, and nothing else changed. -/
def StoresOnly (ea : Word) (v : Byte) (fs : List Flag) (n : Nat) (s t : State) : Prop :=
  ByteStored ea v s t ∧ SameRegsBut [] s t ∧ SameFlagsBut fs s t ∧ t.sp = s.sp ∧ t.run = s.run ∧
  t.pc = s.pc + BitVec.ofNat 16 n

/-- Z and N of `t` are those of the byte `v`: Z when it is 0, N its bit 7 (`SetZN`, R8). -/
def ZNFrom (v : Byte) (t : State) : Prop := (t.flag .Z = true ↔ v = 0#8) ∧ t.flag .N = v.getLsbD 7

/-- The outcome is a next state that is Faulted with `k`, with memory and log as before (R204, R205 b and c). What
the registers, flags, SP and PC hold is not said (R205, log entry 1). -/
def FaultsWith (k : FaultKind) (s : State) (r : Host.Outcome State Fault Refusal) : Prop :=
  ∃ t, r = .next t ∧ t.run = .faulted k ∧ SameMemory s t ∧ t.log = s.log

/-! ### Invariants -/

/-- Both memories are in canonical form and list only cells that exist (R17). -/
def State.MemoriesWf (s : State) : Prop :=
  s.ram.wf Config.ramSize = true ∧ s.rom.wf Config.romSize = true

/-- The state is the end of a fatal error (R200). -/
def State.IsFaulted (s : State) : Prop := ∃ k, s.run = .faulted k

/-- The live Break flag is clear (R20). -/
def State.BreakClear (s : State) : Prop := s.flag .B = false

/-- The invariant of the state that every step keeps. Of the flags of a faulted state it says nothing (R205). -/
def State.Inv (s : State) : Prop := s.MemoriesWf ∧ (¬ s.IsFaulted → s.BreakClear)

/-! ### Runs -/

/-- One step from `s` gives the state `t` (R80). -/
def Steps (s t : State) : Prop := step s = .next t

/-- `t` is reached from `s` by steps. -/
inductive Reaches (s : State) : State → Prop where
  | refl : Reaches s s
  | tail {t u : State} : Reaches s t → Steps t u → Reaches s u

/-- A run from `s` is safe when no state it reaches is faulted (R229). -/
def SafeRun (s : State) : Prop := ∀ t, Reaches s t → ¬ t.IsFaulted

end Sys2Proof.Machine
end

