-- ==== Sys2Proof/Certificates/Slice0/Obligations.lean ====
section
/-!
DEFINITION. The statements for the provers, one `def Obligations.<Name> : Prop` each, in the order of
`OBLIGATIONS.json`. A statement of a next state says it of `exec` on the state the fetch leaves (PC at the
address after the opcode byte, R80) or of `step`, for every state, reachable or not, and so for every RAM_INIT
and ROM_INIT (R17). No statement says what registers, flags, SP or PC hold after a fault (R205).
-/

namespace Sys2Proof.Machine

/-- The 105 illegal opcode bytes, as R65 lists them. -/
def illegalOpcodes : List Byte :=
  [0x02, 0x03, 0x04, 0x07, 0x0B, 0x0C, 0x0F, 0x12, 0x13, 0x14, 0x17, 0x1A, 0x1B, 0x1C, 0x1F] ++
  [0x22, 0x23, 0x27, 0x2B, 0x2F, 0x32, 0x33, 0x34, 0x37, 0x3A, 0x3B, 0x3C, 0x3F, 0x42, 0x43] ++
  [0x44, 0x47, 0x4B, 0x4F, 0x52, 0x53, 0x54, 0x57, 0x5A, 0x5B, 0x5C, 0x5F, 0x62, 0x63, 0x64] ++
  [0x67, 0x6B, 0x6F, 0x72, 0x73, 0x74, 0x77, 0x7A, 0x7B, 0x7C, 0x7F, 0x80, 0x82, 0x83, 0x87] ++
  [0x89, 0x8B, 0x8F, 0x92, 0x93, 0x97, 0x9B, 0x9C, 0x9E, 0x9F, 0xA3, 0xA7, 0xAB, 0xAF, 0xB2] ++
  [0xB3, 0xB7, 0xBB, 0xBF, 0xC2, 0xC3, 0xC7, 0xCB, 0xCF, 0xD2, 0xD3, 0xD4, 0xD7, 0xDA, 0xDB] ++
  [0xDC, 0xDF, 0xE2, 0xE3, 0xE7, 0xEB, 0xEF, 0xF2, 0xF3, 0xF4, 0xF7, 0xFA, 0xFB, 0xFC, 0xFF]

end Sys2Proof.Machine

open Sys2Proof Sys2Proof.Machine

/-- Decode inverts encode: no bit of any of the 151 encodings is dropped (30_encoding.md R60, R62, R64). -/
def Obligations.DecodeOfEncodeIsTheInstruction : Prop :=
  ∀ (i : Instr) (rest : List Byte), i.wellFormed = true →
    decode (encode i ++ rest) = .ok (i, rest) ∧ (encode i).length = i.length

/-- Encode inverts decode: every word has one meaning (30_encoding.md R60, R62, R63). -/
def Obligations.EncodeOfDecodeIsTheBytes : Prop :=
  ∀ (bytes : List Byte) (i : Instr) (rest : List Byte), decode bytes = .ok (i, rest) →
    bytes = encode i ++ rest ∧ i.wellFormed = true

/-- R63: the opcode map and the per-mnemonic table are one bijection of 151 bytes and 151 pairs. -/
def Obligations.OpcodeMapIsABijection : Prop :=
  ((List.range 256).countP fun n => (decodeByte (BitVec.ofNat 8 n)).isSome) = 151 ∧
  (∀ (b : Byte) (m : Mnemonic) (f : Format), decodeByte b = some (m, f) ↔ opcodeOf m f = some b) ∧
  (∀ (m : Mnemonic) (f : Format), f ∈ formatsOf m ↔ ∃ b, decodeByte b = some (m, f))

/-- R65: every byte outside the opcode map is illegal and fatal when fetched as an opcode. -/
def Obligations.IllegalOpcodesAreFatal : Prop :=
  (∀ b : Byte, decodeByte b = none ↔ b ∈ illegalOpcodes) ∧
  (∀ (s : State) (b : Byte), s.run = .running → memRead s s.pc = .ok b → b ∈ illegalOpcodes →
    FaultsWith (.illegalOpcode b) s (step s))

/-- Decoding is right on words of every family, written from the table of R64. -/
def Obligations.SampleWordsDecode : Prop :=
  decode [0xA9, 0x10] = .ok (.ldaImm 0x10, []) ∧
  decode [0x96, 0x10] = .ok (.stxZpy 0x10, []) ∧
  decode [0x7D, 0x34, 0x12] = .ok (.adcAbx 0x1234, []) ∧
  decode [0x6A] = .ok (.rorAcc, []) ∧
  decode [0x24, 0x10] = .ok (.bitZp 0x10, []) ∧
  decode [0xD0, 0xF8] = .ok (.bne 0xF8, []) ∧
  decode [0x6C, 0xFF, 0x02] = .ok (.jmpInd 0x02FF, []) ∧
  decode [0x81, 0x20] = .ok (.staIzx 0x20, []) ∧
  decode [0x40] = .ok (.rti, []) ∧
  decode [0x00] = .ok (.brk, [])

/-- R80: fetch the opcode, advance PC by 1, decode, execute. -/
def Obligations.StepRunsTheDecodedInstruction : Prop :=
  ∀ (s : State) (b : Byte) (operands : List Byte) (i : Instr) (rest : List Byte), s.run = .running →
    memRead s s.pc = .ok b → readBytes s (s.pc + 1#16) (operandCount b) = .ok operands →
    decode (b :: operands) = .ok (i, rest) → step s = exec i (s.advance 1)

/-- Every one of the 151 instructions, at any address it can be read from, is what a step runs (R60, R62, R80). -/
def Obligations.StepRunsTheEncodedInstruction : Prop :=
  ∀ (s : State) (i : Instr), s.run = .running → i.wellFormed = true →
    readBytes s s.pc i.length = .ok (encode i) → step s = exec i (s.advance 1)

/-- R202, R206: the fetch accesses fault first, in order, with nothing else done. -/
def Obligations.FetchFaultsEndTheStep : Prop :=
  ∀ s : State, s.run = .running →
    (InPpu s.pc → FaultsWith (.unsupportedRegion s.pc .read) s (step s)) ∧
    (∀ (b : Byte) (k : FaultKind), memRead s s.pc = .ok b →
      readBytes s (s.pc + 1#16) (operandCount b) = .error k → PpuReadFault k ∧ FaultsWith k s (step s))

/-- R7: the outcomes of one step; only BRK halts; no step from Halted or Faulted. -/
def Obligations.StepHasThreeOutcomes : Prop :=
  ∀ s : State,
    (s.run = .running → ∃ t, step s = .next t ∧
      (t.run = .running ∨ t.run = .halted ∨ ∃ k, t.run = .faulted k) ∧
      (t.run = .halted ↔ memRead s s.pc = .ok 0x00#8)) ∧
    (s.run = .halted → step s = .fault .noStepHalted) ∧
    (∀ k, s.run = .faulted k → step s = .fault (.noStepFaulted k))

/-- R32 (with R33 to R36): the address decode, for reads and for writes. -/
def Obligations.EveryAddressHasOneRegion : Prop :=
  ∀ (s : State) (addr : Word) (v : Byte),
    (addr.toNat < 0x2000 → memRead s addr = .ok (s.ram.get (addr.toNat % 0x0800)) ∧
      ∃ t, memWrite s addr v = .ok t ∧ StoresOnly addr v [] 0 s t ∧ t.rom = s.rom) ∧
    (InPpu addr → memRead s addr = .error (.unsupportedRegion addr .read) ∧
      memWrite s addr v = .error (.unsupportedRegion addr .write)) ∧
    (0x4000 ≤ addr.toNat ∧ addr.toNat < 0x8000 → memRead s addr = .ok 0x00#8 ∧
      ∃ t, memWrite s addr v = .ok t ∧ StoresOnly addr v [] 0 s t ∧ t.rom = s.rom) ∧
    (InRom addr → memRead s addr = .ok (s.rom.get (addr.toNat - 0x8000)) ∧
      memWrite s addr v = .error (.romWriteViolation addr v))

/-- R33: four addresses name one cell; a RAM write neither faults nor logs. -/
def Obligations.RamIsMirroredFourTimes : Prop :=
  ∀ (s : State) (c j : Nat) (v : Byte), c < 0x0800 → j < 4 →
    ∃ t, memWrite s (BitVec.ofNat 16 (c + 0x0800 * j)) v = .ok t ∧
      (∀ k, k < 4 → memRead t (BitVec.ofNat 16 (c + 0x0800 * k)) = .ok v) ∧
      (∀ addr : Word, ¬ (addr.toNat < 0x2000 ∧ addr.toNat % 0x0800 = c) → memRead t addr = memRead s addr) ∧
      SameRegsBut [] s t ∧ SameFlagsBut [] s t ∧ t.sp = s.sp ∧ t.pc = s.pc ∧ t.run = s.run ∧ t.log = s.log

/-- R37; and the round trip of the two helpers where both bytes lie in the RAM window, which R38 derives from R33 to R36. -/
def Obligations.SixteenBitReadIsLittleEndian : Prop :=
  ∀ (s : State) (addr : Word),
    (∀ lo hi, memRead s addr = .ok lo → memRead s (addr + 1#16) = .ok hi →
      ∃ w, memRead16 s addr = .ok w ∧ w.toNat = 256 * hi.toNat + lo.toNat) ∧
    (∀ k, memRead s addr = .error k → memRead16 s addr = .error k) ∧
    (∀ lo k, memRead s addr = .ok lo → memRead s (addr + 1#16) = .error k → memRead16 s addr = .error k) ∧
    (∀ w : Word, addr.toNat < 0x1FFF → ∃ t, memWrite16 s addr w = .ok t ∧ memRead16 t addr = .ok w)

/-- R42: push writes then decrements, with the 8-bit wrap logged. -/
def Obligations.PushStoresThenDecrements : Prop :=
  ∀ (s : State) (v : Byte), ∃ t, push8 s v = .ok t ∧
    (∀ addr : Word, addr.toNat < 0x2000 ∧ addr.toNat % 0x0800 = 0x0100 + s.sp.toNat → memRead t addr = .ok v) ∧
    (∀ addr : Word, ¬ (addr.toNat < 0x2000 ∧ addr.toNat % 0x0800 = 0x0100 + s.sp.toNat) →
      memRead t addr = memRead s addr) ∧
    t.sp.toNat = (s.sp.toNat + 255) % 256 ∧
    t.log = s.log ++ (if s.sp.toNat = 0 then [.stackWrap .push] else []) ∧
    SameRegsBut [] s t ∧ SameFlagsBut [] s t ∧ t.pc = s.pc ∧ t.run = s.run

/-- R43: pop increments then reads, with the 8-bit wrap logged; the popped cell is not changed. -/
def Obligations.PopIncrementsThenReads : Prop :=
  ∀ s : State, ∃ v t, pop8 s = .ok (v, t) ∧
    memRead s (BitVec.ofNat 16 (0x0100 + (s.sp.toNat + 1) % 256)) = .ok v ∧
    t.sp.toNat = (s.sp.toNat + 1) % 256 ∧
    t.log = s.log ++ (if s.sp.toNat = 255 then [.stackWrap .pop] else []) ∧
    SameMemory s t ∧ SameRegsBut [] s t ∧ SameFlagsBut [] s t ∧ t.pc = s.pc ∧ t.run = s.run

/-- R44: Push16 and Pop16, with the two-byte wrap included. That "`Pop16()` after `Push16(w)` returns `w` and restores SP" R44 itself marks as derived, from R42 and R43. -/
def Obligations.PopWordInvertsPushWord : Prop :=
  ∀ (s : State) (w : Word), ∃ t u, push16 s w = .ok t ∧ pop16 t = .ok (w, u) ∧
    t.sp = s.sp - 2#8 ∧ u.sp = s.sp ∧
    t.log = s.log ++ (if s.sp.toNat ≤ 1 then [.stackWrap .push] else []) ∧
    u.log = t.log ++ (if 254 ≤ t.sp.toNat then [.stackWrap .pop] else []) ∧
    memRead t (BitVec.ofNat 16 (0x0100 + s.sp.toNat)) = .ok (hi8 w) ∧
    memRead t (BitVec.ofNat 16 (0x0100 + (s.sp - 1#8).toNat)) = .ok (lo8 w)

/-- R85 to R90: the effective addresses that read no pointer (the operand bytes are read by the step), and what the byte M of
a source is: R84, and `M <- MemRead(EA(format), 1)` (R100) over the modes of R85 to R93. -/
def Obligations.IndexedAddressesWrap : Prop :=
  ∀ (s : State) (zp : Byte) (w : Word),
    effAddr s (.zp zp) = .ok (BitVec.ofNat 16 zp.toNat) ∧
    effAddr s (.zpx zp) = .ok (BitVec.ofNat 16 ((zp.toNat + s.x.toNat) % 256)) ∧
    effAddr s (.zpy zp) = .ok (BitVec.ofNat 16 ((zp.toNat + s.y.toNat) % 256)) ∧
    effAddr s (.abs w) = .ok w ∧
    effAddr s (.abx w) = .ok (BitVec.ofNat 16 (w.toNat + s.x.toNat)) ∧
    effAddr s (.aby w) = .ok (BitVec.ofNat 16 (w.toNat + s.y.toNat)) ∧
    (∀ v : Byte, readSrc s (.imm v) = .ok v) ∧
    (∀ (m : Mode) (ea : Word), effAddr s m = .ok ea → readSrc s (.mem m) = memRead s ea) ∧
    (∀ (m : Mode) (k : FaultKind), effAddr s m = .error k → readSrc s (.mem m) = .error k)

/-- R91: the indirect-JMP page quirk (the operand bytes are read by the step). -/
def Obligations.IndirectPointerStaysInItsPage : Prop :=
  ∀ (s : State) (ptr hiAddr : Word),
    hiAddr = (if ptr.toNat % 256 = 0xFF then ptr &&& 0xFF00#16 else ptr + 1#16) →
    (¬ InPpu ptr → ∃ lo hi ea, memRead s ptr = .ok lo ∧ memRead s hiAddr = .ok hi ∧
      effAddr s (.ind ptr) = .ok ea ∧ ea.toNat = 256 * hi.toNat + lo.toNat) ∧
    (InPpu ptr → effAddr s (.ind ptr) = .error (.unsupportedRegion ptr .read))

/-- R92, R93: the two zero-page pointer modes (ZP_PTR_WRAP, decision D10, log entry 6). -/
def Obligations.ZeroPagePointersWrapInPageZero : Prop :=
  ∀ (s : State) (zp : Byte),
    (∃ ea, effAddr s (.izx zp) = .ok ea ∧ ea.toNat =
      256 * (s.ram.get ((zp.toNat + s.x.toNat + 1) % 256)).toNat +
        (s.ram.get ((zp.toNat + s.x.toNat) % 256)).toNat) ∧
    (∃ ea, effAddr s (.izy zp) = .ok ea ∧ ea.toNat =
      (256 * (s.ram.get ((zp.toNat + 1) % 256)).toNat + (s.ram.get zp.toNat).toNat + s.y.toNat) % 65536)

/-- R100, R101, R102 (R112): the loads. -/
def Obligations.LoadsWriteTheirRegister : Prop :=
  ∀ (i : Instr) (r : Reg) (src : Src) (s : State),
    (i.mnemonic, r) ∈ [(.LDA, .A), (.LDX, .X), (.LDY, .Y)] → i.operand = src.operand →
    (∀ m, readSrc s src = .ok m → ∃ t, exec i s = .next t ∧ t.reg r = m ∧ ZNFrom m t ∧
      ChangesOnly [r] [.Z, .N] i.format.operandLength s t) ∧
    (∀ k, readSrc s src = .error k → PpuReadFault k ∧ FaultsWith k s (exec i s))

/-- R103, R104, R105 (R113): the stores, by region of the effective address. -/
def Obligations.StoresWriteOneByte : Prop :=
  ∀ (i : Instr) (r : Reg) (m : Mode) (s : State),
    (i.mnemonic, r) ∈ [(.STA, .A), (.STX, .X), (.STY, .Y)] → i.operand = .memory m →
    ∃ ea, effAddr s m = .ok ea ∧
      (Writable ea → ∃ t, exec i s = .next t ∧ StoresOnly ea (s.reg r) [] i.format.operandLength s t) ∧
      (InPpu ea → FaultsWith (.unsupportedRegion ea .write) s (exec i s)) ∧
      (InRom ea → FaultsWith (.romWriteViolation ea (s.reg r)) s (exec i s))

/-- R106 to R110: the flagged transfers. -/
def Obligations.TransfersCopyAndFlag : Prop :=
  ∀ (s : State) (i : Instr) (v : Byte) (r : Reg),
    (i, v, r) ∈ [(Instr.tax, s.a, Reg.X), (.tay, s.a, .Y), (.txa, s.x, .A), (.tya, s.y, .A), (.tsx, s.sp, .X)] →
    ∃ t, exec i s = .next t ∧ t.reg r = v ∧ ZNFrom v t ∧ ChangesOnly [r] [.Z, .N] 0 s t

/-- R111: the unflagged transfer into the stack pointer. -/
def Obligations.TxsSetsOnlyTheStackPointer : Prop :=
  ∀ s : State, ∃ t, exec .txs s = .next t ∧ t.sp = s.x ∧ SameRegsBut [] s t ∧ SameFlagsBut [] s t ∧
    SameMemory s t ∧ t.run = s.run ∧ t.log = s.log ∧ t.pc = s.pc

/-- R122: add with carry, with V as the rule's corner cases say it. -/
def Obligations.AdcAddsWithCarry : Prop :=
  ∀ (i : Instr) (src : Src) (s : State), i.mnemonic = .ADC → i.operand = src.operand →
    (∀ m, readSrc s src = .ok m → ∃ t, exec i s = .next t ∧
      t.a.toNat = (s.a.toNat + m.toNat + (s.flag .C).toNat) % 256 ∧
      (t.flag .C = true ↔ 0xFF < s.a.toNat + m.toNat + (s.flag .C).toNat) ∧
      (t.flag .V = true ↔ s.a.toInt + m.toInt + (s.flag .C).toNat < -128 ∨
        127 < s.a.toInt + m.toInt + (s.flag .C).toNat) ∧
      ZNFrom t.a t ∧ ChangesOnly [.A] [.C, .V, .Z, .N] i.format.operandLength s t) ∧
    (∀ k, readSrc s src = .error k → PpuReadFault k ∧ FaultsWith k s (exec i s))

/-- R123 (decision D14 for V, log entry 6): subtract with borrow. -/
def Obligations.SbcSubtractsWithBorrow : Prop :=
  ∀ (i : Instr) (src : Src) (s : State), i.mnemonic = .SBC → i.operand = src.operand →
    (∀ m, readSrc s src = .ok m → ∃ t, exec i s = .next t ∧
      (t.a.toNat : Int) = ((s.a.toNat : Int) - m.toNat - (1 - (s.flag .C).toNat)) % 256 ∧
      (t.flag .C = true ↔ m.toNat + (1 - (s.flag .C).toNat) ≤ s.a.toNat) ∧
      (t.flag .V = true ↔ s.a.toInt - m.toInt - (1 - ((s.flag .C).toNat : Int)) < -128 ∨
        127 < s.a.toInt - m.toInt - (1 - ((s.flag .C).toNat : Int))) ∧
      ZNFrom t.a t ∧ ChangesOnly [.A] [.C, .V, .Z, .N] i.format.operandLength s t) ∧
    (∀ k, readSrc s src = .error k → PpuReadFault k ∧ FaultsWith k s (exec i s))

/-- R124, R125, R126: the bitwise combinations. -/
def Obligations.LogicalOpsCombineWithA : Prop :=
  ∀ (i : Instr) (f : Bool → Bool → Bool) (src : Src) (s : State),
    (i.mnemonic = .AND ∧ f = and ∨ i.mnemonic = .ORA ∧ f = or ∨ i.mnemonic = .EOR ∧ f = xor) →
    i.operand = src.operand →
    (∀ m, readSrc s src = .ok m → ∃ t, exec i s = .next t ∧
      (∀ n, n < 8 → t.a.getLsbD n = f (s.a.getLsbD n) (m.getLsbD n)) ∧
      ZNFrom t.a t ∧ ChangesOnly [.A] [.Z, .N] i.format.operandLength s t) ∧
    (∀ k, readSrc s src = .error k → PpuReadFault k ∧ FaultsWith k s (exec i s))

/-- R130 to R134, Accumulator format; ASL's carry is bit 7 of the operand (conflict C2). -/
def Obligations.ShiftsOfTheAccumulator : Prop :=
  ∀ (i : Instr) (s : State) (result : Nat) (out : Bool),
    (i, result, out) ∈ [(Instr.aslAcc, 2 * s.a.toNat % 256, s.a.getLsbD 7), (.lsrAcc, s.a.toNat / 2, s.a.getLsbD 0),
      (.rolAcc, (2 * s.a.toNat + (s.flag .C).toNat) % 256, s.a.getLsbD 7),
      (.rorAcc, s.a.toNat / 2 + 128 * (s.flag .C).toNat, s.a.getLsbD 0)] →
    ∃ t, exec i s = .next t ∧ t.a.toNat = result ∧ t.flag .C = out ∧ ZNFrom t.a t ∧
      ChangesOnly [.A] [.C, .Z, .N] 0 s t

/-- R130 to R134, memory formats: one read and one write of the same address. -/
def Obligations.ShiftsOfMemory : Prop :=
  ∀ (i : Instr) (m : Mode) (s : State), i.mnemonic ∈ [.ASL, .LSR, .ROL, .ROR] → i.operand = .memory m →
    ∃ ea, effAddr s m = .ok ea ∧ (InPpu ea → FaultsWith (.unsupportedRegion ea .read) s (exec i s)) ∧
      ∀ (v r : Byte) (out : Bool), memRead s ea = .ok v →
        (i.mnemonic, r.toNat, out) ∈ [(.ASL, 2 * v.toNat % 256, v.getLsbD 7), (.LSR, v.toNat / 2, v.getLsbD 0),
          (.ROL, (2 * v.toNat + (s.flag .C).toNat) % 256, v.getLsbD 7),
          (.ROR, v.toNat / 2 + 128 * (s.flag .C).toNat, v.getLsbD 0)] →
        (Writable ea → ∃ t, exec i s = .next t ∧ t.flag .C = out ∧ ZNFrom r t ∧
          StoresOnly ea r [.C, .Z, .N] i.format.operandLength s t) ∧
        (InRom ea → FaultsWith (.romWriteViolation ea r) s (exec i s))

/-- R135, R136 (R130): increment and decrement of memory. -/
def Obligations.IncAndDecOfMemory : Prop :=
  ∀ (i : Instr) (m : Mode) (s : State), i.mnemonic ∈ [.INC, .DEC] → i.operand = .memory m →
    ∃ ea, effAddr s m = .ok ea ∧ (InPpu ea → FaultsWith (.unsupportedRegion ea .read) s (exec i s)) ∧
      ∀ v r : Byte, memRead s ea = .ok v →
        (i.mnemonic, r.toNat) ∈ [(.INC, (v.toNat + 1) % 256), (.DEC, (v.toNat + 255) % 256)] →
        (Writable ea → ∃ t, exec i s = .next t ∧ ZNFrom r t ∧
          StoresOnly ea r [.Z, .N] i.format.operandLength s t) ∧
        (InRom ea → FaultsWith (.romWriteViolation ea r) s (exec i s))

/-- R137 to R140: increment and decrement of X and Y. -/
def Obligations.RegisterStepsWrap : Prop :=
  ∀ (s : State) (i : Instr) (r : Reg) (n : Nat),
    (i, r, n) ∈ [(Instr.inx, Reg.X, (s.x.toNat + 1) % 256), (.iny, .Y, (s.y.toNat + 1) % 256),
      (.dex, .X, (s.x.toNat + 255) % 256), (.dey, .Y, (s.y.toNat + 255) % 256)] →
    ∃ t, exec i s = .next t ∧ (t.reg r).toNat = n ∧ ZNFrom (t.reg r) t ∧ ChangesOnly [r] [.Z, .N] 0 s t

/-- R150, R151, R152, R154: the compares. -/
def Obligations.ComparesSetCarryZeroNegative : Prop :=
  ∀ (i : Instr) (r : Reg) (src : Src) (s : State),
    (i.mnemonic, r) ∈ [(.CMP, .A), (.CPX, .X), (.CPY, .Y)] → i.operand = src.operand →
    (∀ m, readSrc s src = .ok m → ∃ t, exec i s = .next t ∧
      (t.flag .C = true ↔ m.toNat ≤ (s.reg r).toNat) ∧ (t.flag .Z = true ↔ s.reg r = m) ∧
      (t.flag .N = true ↔ 128 ≤ ((s.reg r).toNat + 256 - m.toNat) % 256) ∧
      ChangesOnly [] [.C, .Z, .N] i.format.operandLength s t) ∧
    (∀ k, readSrc s src = .error k → PpuReadFault k ∧ FaultsWith k s (exec i s))

/-- R153: the bit test. -/
def Obligations.BitTestsMemoryAgainstA : Prop :=
  ∀ (i : Instr) (src : Src) (s : State), i.mnemonic = .BIT → i.operand = src.operand →
    (∀ m, readSrc s src = .ok m → ∃ t, exec i s = .next t ∧
      (t.flag .Z = true ↔ ∀ n, n < 8 → ¬ (s.a.getLsbD n = true ∧ m.getLsbD n = true)) ∧
      t.flag .N = m.getLsbD 7 ∧ t.flag .V = m.getLsbD 6 ∧
      ChangesOnly [] [.Z, .N, .V] i.format.operandLength s t) ∧
    (∀ k, readSrc s src = .error k → PpuReadFault k ∧ FaultsWith k s (exec i s))

/-- R161 to R168 (R160, R94): the conditional branches. -/
def Obligations.BranchesTestOneFlag : Prop :=
  ∀ (s : State) (off : Byte) (i : Instr) (f : Flag) (taken : Bool),
    (i, f, taken) ∈ [(Instr.bcc off, Flag.C, false), (.bcs off, .C, true), (.beq off, .Z, true), (.bne off, .Z, false),
      (.bmi off, .N, true), (.bpl off, .N, false), (.bvc off, .V, false), (.bvs off, .V, true)] →
    ∃ t, exec i s = .next t ∧
      (t.pc.toNat : Int) = ((s.pc.toNat : Int) + 1 + (if s.flag f = taken then off.toInt else 0)) % 65536 ∧
      SameRegsBut [] s t ∧ SameFlagsBut [] s t ∧ SameMemory s t ∧ t.sp = s.sp ∧ t.run = s.run ∧ t.log = s.log

/-- R169: the jumps; the Indirect target is that of R91. -/
def Obligations.JumpsSetPcOnly : Prop :=
  ∀ s : State,
    (∀ (i : Instr) (m : Mode) (target : Word), i.mnemonic = .JMP → i.operand = .memory m →
      effAddr s m = .ok target → ∃ t, exec i s = .next t ∧ t.pc = target ∧ SameRegsBut [] s t ∧
        SameFlagsBut [] s t ∧ SameMemory s t ∧ t.sp = s.sp ∧ t.run = s.run ∧ t.log = s.log) ∧
    (∀ addr : Word, effAddr s (.abs addr) = .ok addr) ∧
    (∀ (ptr : Word) (k : FaultKind), effAddr s (.ind ptr) = .error k →
      PpuReadFault k ∧ FaultsWith k s (exec (.jmpInd ptr) s))

/-- R170 (R42, R44): subroutine call. -/
def Obligations.JsrPushesTheReturnAddress : Prop :=
  ∀ (s : State) (target : Word), ∃ t, exec (.jsr target) s = .next t ∧ t.pc = target ∧ t.sp = s.sp - 2#8 ∧
    (∀ addr : Word, memRead t addr =
      if addr.toNat < 0x2000 ∧ addr.toNat % 0x0800 = 0x0100 + s.sp.toNat then .ok (hi8 (s.pc + 1#16))
      else if addr.toNat < 0x2000 ∧ addr.toNat % 0x0800 = 0x0100 + (s.sp - 1#8).toNat then .ok (lo8 (s.pc + 1#16))
      else memRead s addr) ∧
    t.log = s.log ++ (if s.sp.toNat ≤ 1 then [.stackWrap .push] else []) ∧
    SameRegsBut [] s t ∧ SameFlagsBut [] s t ∧ t.run = s.run

/-- R171 (R43, R44): subroutine return. -/
def Obligations.RtsPopsAndAddsOne : Prop :=
  ∀ s : State, ∃ t, exec .rts s = .next t ∧
    t.pc.toNat = (256 * (s.ram.get (0x0100 + (s.sp.toNat + 2) % 256)).toNat +
      (s.ram.get (0x0100 + (s.sp.toNat + 1) % 256)).toNat + 1) % 65536 ∧
    t.sp = s.sp + 2#8 ∧ t.log = s.log ++ (if 254 ≤ s.sp.toNat then [.stackWrap .pop] else []) ∧
    SameMemory s t ∧ SameRegsBut [] s t ∧ SameFlagsBut [] s t ∧ t.run = s.run

/-- The return-address-minus-one convention of R170 and R171 (source property S5). -/
def Obligations.JsrThenRtsReturnsAfterTheCall : Prop :=
  ∀ (s : State) (target : Word), ∃ t u, exec (.jsr target) s = .next t ∧
    exec .rts (t.advance 1) = .next u ∧ u.pc = s.pc + 2#16 ∧ u.sp = s.sp ∧
    SameRegsBut [] s u ∧ SameFlagsBut [] s u

/-- R180, R182: the pushes. -/
def Obligations.PhaAndPhpPushOneByte : Prop :=
  ∀ (s : State) (i : Instr) (v : Byte), (i = .pha ∧ v = s.a) ∨
      (i = .php ∧ ∀ f : Flag, flagOf v f = (f == .B || f == .B2 || s.flag f)) →
    ∃ t, exec i s = .next t ∧
      (∀ addr : Word, memRead t addr =
        if addr.toNat < 0x2000 ∧ addr.toNat % 0x0800 = 0x0100 + s.sp.toNat then .ok v else memRead s addr) ∧
      t.sp = s.sp - 1#8 ∧ t.log = s.log ++ (if s.sp.toNat = 0 then [.stackWrap .push] else []) ∧
      SameRegsBut [] s t ∧ SameFlagsBut [] s t ∧ t.pc = s.pc ∧ t.run = s.run

/-- R181: pull accumulator. -/
def Obligations.PlaPullsIntoA : Prop :=
  ∀ s : State, ∃ t, exec .pla s = .next t ∧
    t.a = s.ram.get (0x0100 + (s.sp.toNat + 1) % 256) ∧ ZNFrom t.a t ∧ t.sp = s.sp + 1#8 ∧
    t.log = s.log ++ (if s.sp.toNat = 255 then [.stackWrap .pop] else []) ∧
    SameMemory s t ∧ SameRegsBut [.A] s t ∧ SameFlagsBut [.Z, .N] s t ∧ t.pc = s.pc ∧ t.run = s.run

/-- R183: pull processor status. -/
def Obligations.PlpRestoresTheStatus : Prop :=
  ∀ s : State, ∃ t, exec .plp s = .next t ∧ t.flag .B = false ∧ t.flag .B2 = true ∧
    (∀ f, f ≠ .B → f ≠ .B2 → t.flag f = flagOf (s.ram.get (0x0100 + (s.sp.toNat + 1) % 256)) f) ∧
    t.sp = s.sp + 1#8 ∧ t.log = s.log ++ (if s.sp.toNat = 255 then [.stackWrap .pop] else []) ∧
    SameMemory s t ∧ SameRegsBut [] s t ∧ t.pc = s.pc ∧ t.run = s.run

/-- R184 (R210): return from interrupt. -/
def Obligations.RtiRestoresStatusAndPc : Prop :=
  ∀ s : State, ∃ t, exec .rti s = .next t ∧ t.flag .B = false ∧ t.flag .B2 = true ∧
    (∀ f, f ≠ .B → f ≠ .B2 → t.flag f = flagOf (s.ram.get (0x0100 + (s.sp.toNat + 1) % 256)) f) ∧
    t.pc.toNat = 256 * (s.ram.get (0x0100 + (s.sp.toNat + 3) % 256)).toNat +
      (s.ram.get (0x0100 + (s.sp.toNat + 2) % 256)).toNat ∧
    t.sp = s.sp + 3#8 ∧ t.log = s.log ++ (if 253 ≤ s.sp.toNat then [.stackWrap .pop] else []) ∧
    SameMemory s t ∧ SameRegsBut [] s t ∧ t.run = s.run

/-- R185 to R191: the flag instructions. -/
def Obligations.FlagInstructionsWriteOneFlag : Prop :=
  ∀ (s : State) (i : Instr) (f : Flag) (b : Bool),
    (i, f, b) ∈ [(Instr.clc, Flag.C, false), (.sec, .C, true), (.cld, .D, false), (.sed, .D, true), (.cli, .I, false),
      (.sei, .I, true), (.clv, .V, false)] →
    ∃ t, exec i s = .next t ∧ t.flag f = b ∧ ChangesOnly [] [f] 0 s t

/-- R198: no operation. -/
def Obligations.NopChangesOnlyPc : Prop :=
  (∀ s : State, exec .nop s = .next s) ∧
  (∀ s : State, s.run = .running → memRead s s.pc = .ok 0xEA#8 → step s = .next (s.setPc (s.pc + 1#16)))

/-- R199 (R209, decision D17): break halts and does nothing else. -/
def Obligations.BrkOnlyHalts : Prop :=
  (∀ s : State, ∃ t, exec .brk s = .next t ∧ t.run = .halted ∧ SameRegsBut [] s t ∧ SameFlagsBut [] s t ∧
    SameMemory s t ∧ t.sp = s.sp ∧ t.log = s.log ∧ t.pc = s.pc) ∧
  (∀ s : State, s.run = .running → memRead s s.pc = .ok 0x00#8 → ∃ t, step s = .next t ∧ t.run = .halted ∧
    SameRegsBut [] s t ∧ SameFlagsBut [] s t ∧ SameMemory s t ∧ t.sp = s.sp ∧ t.log = s.log ∧
    t.pc = s.pc + 1#16)

/-- Every step keeps the invariant: canonical memories (the model's representation of R17, log entry 3) and P.B = 0 unless Faulted (R20, R205). -/
def Obligations.StepKeepsTheInvariant : Prop :=
  ∀ s t : State, s.Inv → step s = .next t → t.Inv

/-- After reset P.B = 0 and no memory has changed (R19, R20). That `State.reset` lists no cell, and the canonical form of the
memories, are the model's choice (log entry 3, DESIGN CHOICE). -/
def Obligations.ResetMeetsTheInvariant : Prop :=
  State.reset.Inv ∧ ∀ s : State, s.MemoriesWf → (hostReset s).Inv

/-- R36, R49: the ROM cells are written only by the host's load. -/
def Obligations.NoStepWritesRom : Prop :=
  ∀ s t : State, step s = .next t →
    t.rom = s.rom ∧ ∀ addr : Word, 0x8000 ≤ addr.toNat → memRead t addr = memRead s addr

/-- R12 (the columns of writers), R20: the writers of each flag, over all instructions and states. -/
def Obligations.OnlyListedInstructionsWriteAFlag : Prop :=
  ∀ (i : Instr) (s t : State), exec i s = .next t → (∀ k, t.run ≠ .faulted k) →
    (t.flag .C ≠ s.flag .C → i.mnemonic ∈ [.ADC, .SBC, .ASL, .ROL, .LSR, .ROR, .CMP, .CPX, .CPY, .CLC, .SEC, .PLP, .RTI]) ∧
    (t.flag .Z ≠ s.flag .Z → i.mnemonic ∈ [.LDA, .LDX, .LDY, .TAX, .TAY, .TXA, .TYA, .TSX, .PLA, .ADC, .SBC, .AND, .ORA,
      .EOR, .ASL, .LSR, .ROL, .ROR, .INC, .DEC, .INX, .INY, .DEX, .DEY, .CMP, .CPX, .CPY, .BIT, .PLP, .RTI]) ∧
    (t.flag .N ≠ s.flag .N → i.mnemonic ∈ [.LDA, .LDX, .LDY, .TAX, .TAY, .TXA, .TYA, .TSX, .PLA, .ADC, .SBC, .AND, .ORA,
      .EOR, .ASL, .LSR, .ROL, .ROR, .INC, .DEC, .INX, .INY, .DEX, .DEY, .CMP, .CPX, .CPY, .BIT, .PLP, .RTI]) ∧
    (t.flag .V ≠ s.flag .V → i.mnemonic ∈ [.ADC, .SBC, .BIT, .CLV, .PLP, .RTI]) ∧
    (t.flag .I ≠ s.flag .I → i.mnemonic ∈ [.CLI, .SEI, .PLP, .RTI]) ∧
    (t.flag .D ≠ s.flag .D → i.mnemonic ∈ [.CLD, .SED, .PLP, .RTI]) ∧
    (t.flag .B ≠ s.flag .B → i.mnemonic ∈ [.PLP, .RTI] ∧ t.flag .B = false) ∧
    (t.flag .B2 ≠ s.flag .B2 → i.mnemonic ∈ [.PLP, .RTI] ∧ t.flag .B2 = true)

/-- R10 ("written by" column) and R14: the writers of the registers and of SP. -/
def Obligations.OnlyListedInstructionsWriteARegister : Prop :=
  ∀ (i : Instr) (s t : State), exec i s = .next t → (∀ k, t.run ≠ .faulted k) →
    (t.a ≠ s.a → i.mnemonic ∈ [.LDA, .TXA, .TYA, .PLA, .ADC, .SBC, .AND, .ORA, .EOR] ∨
      i ∈ [.aslAcc, .lsrAcc, .rolAcc, .rorAcc]) ∧
    (t.x ≠ s.x → i.mnemonic ∈ [.LDX, .TAX, .TSX, .INX, .DEX]) ∧
    (t.y ≠ s.y → i.mnemonic ∈ [.LDY, .TAY, .INY, .DEY]) ∧
    (t.sp ≠ s.sp → i.mnemonic ∈ [.PHA, .PHP, .JSR, .PLA, .PLP, .RTS, .RTI, .TXS])

/-- R203, R207, R42: the instructions that write memory and those that log, over all instructions and states. -/
def Obligations.OnlyListedInstructionsWriteMemory : Prop :=
  ∀ (i : Instr) (s t : State), exec i s = .next t →
    (∀ addr : Word, memRead t addr ≠ memRead s addr → addr.toNat < 0x2000 ∧
      i.mnemonic ∈ [.STA, .STX, .STY, .ASL, .LSR, .ROL, .ROR, .INC, .DEC, .PHA, .PHP, .JSR]) ∧
    (t.log ≠ s.log → (∃ d more, t.log = s.log ++ d :: more) ∧
      i.mnemonic ∈ [.STA, .STX, .STY, .ASL, .LSR, .ROL, .ROR, .INC, .DEC, .PHA, .PHP, .JSR, .PLA, .PLP, .RTS, .RTI])

/-- R13, R81: PC advances by exactly the total length except where it is explicitly overwritten. -/
def Obligations.PcAdvancesByTheLength : Prop :=
  ∀ (s t : State) (i : Instr), s.run = .running → i.wellFormed = true →
    readBytes s s.pc i.length = .ok (encode i) →
    i.mnemonic ∉ [.BCC, .BCS, .BEQ, .BNE, .BMI, .BPL, .BVC, .BVS, .JMP, .JSR, .RTS, .RTI] →
    step s = .next t → (∀ k, t.run ≠ .faulted k) → t.pc = s.pc + BitVec.ofNat 16 i.length

/-- R204, R205 (b) and (c): what a faulted step may have done, over all instructions and states. -/
def Obligations.ExecutionFaultsAreClean : Prop :=
  ∀ (s t : State) (k : FaultKind), s.run = .running → step s = .next t → t.run = .faulted k →
    SameMemory s t ∧ t.log = s.log ∧
    ((∃ b, memRead s s.pc = .ok b ∧ k = .illegalOpcode b) ∨
     (∃ addr access, InPpu addr ∧ k = .unsupportedRegion addr access) ∨
     (∃ addr v, InRom addr ∧ k = .romWriteViolation addr v))

/-- R12, R121, R208: the four flags that nothing but the stack and flag instructions reads. -/
def Obligations.IdleFlagsDoNotSteerExecution : Prop :=
  ∀ (f : Flag) (b : Bool) (i : Instr) (s t : State), f ∈ [.I, .D, .B, .B2] →
    i.mnemonic ∉ [.PHP, .PLP, .RTI, .CLD, .SED, .CLI, .SEI] →
    exec i s = .next t →
    ((∀ k, t.run ≠ .faulted k) → exec i (s.setFlag f b) = .next (t.setFlag f b)) ∧
    (∀ k, t.run = .faulted k → ∃ u, exec i (s.setFlag f b) = .next u ∧ u.run = .faulted k)

/-- R222 (R19): the host's reset. -/
def Obligations.HostResetValues : Prop :=
  ∀ s : State, (hostReset s).a = 0x00 ∧ (hostReset s).x = 0x00 ∧ (hostReset s).y = 0x00 ∧ (hostReset s).p = 0x00 ∧
    (hostReset s).sp = 0xFF ∧ memRead16 s 0xFFFC#16 = .ok (hostReset s).pc ∧ (hostReset s).run = .running ∧
    (hostReset s).ram = s.ram ∧ (hostReset s).rom = s.rom ∧ (hostReset s).log = s.log

/-- R221 (R49): the host's load. -/
def Obligations.LoadFillsRomAndTheVector : Prop :=
  ∀ (s : State) (program : List Byte),
    (program.length ≤ 0x7FFC → ∃ t, hostLoad program s = some t ∧
      (∀ (i : Nat) (h : i < program.length), memRead t (BitVec.ofNat 16 (0x8000 + i)) = .ok program[i]) ∧
      memRead t 0xFFFC#16 = .ok 0x00#8 ∧ memRead t 0xFFFD#16 = .ok 0x80#8 ∧
      (∀ addr : Word, ¬ (0x8000 ≤ addr.toNat ∧ addr.toNat < 0x8000 + program.length) → addr ≠ 0xFFFC#16 →
        addr ≠ 0xFFFD#16 → memRead t addr = memRead s addr) ∧
      SameRegsBut [] s t ∧ SameFlagsBut [] s t ∧ t.sp = s.sp ∧ t.pc = s.pc ∧ t.run = s.run ∧ t.ram = s.ram ∧
      t.log = s.log) ∧
    (0x7FFC < program.length → hostLoad program s = none)

/-- R221, R222, R225: how a program comes to run, the refused image included (answered by none, log entry 9). -/
def Obligations.LoadThenResetStartsTheImage : Prop :=
  ∀ (s : State) (program : List Byte) (hook : Option Hook) (fuel : Nat),
    (program.length ≤ 0x7FFC →
      ∃ t, hostLoad program s = some t ∧ (hostReset t).pc = 0x8000#16 ∧ (hostReset t).run = .running ∧
        (∀ (i : Nat) (h : i < program.length),
          memRead (hostReset t) ((hostReset t).pc + BitVec.ofNat 16 i) = .ok program[i]) ∧
        loadAndRun hook fuel program s = hostRun hook fuel (hostReset t)) ∧
    (0x7FFC < program.length → loadAndRun hook fuel program s = none)

/-- R223, R227: the loop of `run`, and how a run ends. The step bound is the model's own device (log entry 9). -/
def Obligations.RunEndsHaltedOrFaulted : Prop :=
  ∀ (hook : Option Hook) (fuel : Nat) (s : State),
    (∀ t, hostRun hook fuel s = some t → t.run = .halted ∨ ∃ k, t.run = .faulted k) ∧
    (s.run ≠ .running → hostRun hook fuel s = some s) ∧
    (∀ t, s.run = .running → step s = .next t → hostRun hook (fuel + 1) s = hostRun hook fuel (afterInstr hook t)) ∧
    (s.run = .running → hostRun hook 0 s = none) ∧
    (∀ t more, hostRun hook fuel s = some t → hostRun hook (fuel + more) s = some t)

/-- R224 (b) and (c): when a host hook is called, and what it may do (log entry 8). -/
def Obligations.TheHookWritesRamOnly : Prop :=
  ∀ (hook : Option Hook) (s : State),
    (∃ ram, afterInstr hook s = { s with ram := ram }) ∧
    (∀ addr : Word, 0x2000 ≤ addr.toNat → memRead (afterInstr hook s) addr = memRead s addr) ∧
    (∀ k, s.run = .faulted k → afterInstr hook s = s) ∧
    (hook = none → afterInstr hook s = s) ∧
    (∀ h : Hook, (∀ k, s.run ≠ .faulted k) →
      afterInstr (some h) s = writeRamCells s (h s) ∧
      (∀ (before rest : List (BitVec 11 × Byte)) (c : BitVec 11) (v : Byte), h s = before ++ (c, v) :: rest →
        (∀ w ∈ rest, w.1 ≠ c) → ∀ addr : Word, addr.toNat < 0x2000 → addr.toNat % 0x0800 = c.toNat →
        memRead (afterInstr (some h) s) addr = .ok v) ∧
      (∀ addr : Word, addr.toNat < 0x2000 → (∀ w ∈ h s, w.1.toNat ≠ addr.toNat % 0x0800) →
        memRead (afterInstr (some h) s) addr = memRead s addr))

/-- R60 to R62, R96, R201: the bytes a fetch reads, which the statements about `step` name by `readBytes`. -/
def Obligations.FetchReadsAscendingAddresses : Prop :=
  (∀ (s : State) (addr : Word) (n : Nat),
    (∀ bytes : List Byte, readBytes s addr n = .ok bytes ↔ bytes.length = n ∧
      ∀ (k : Nat) (h : k < bytes.length), memRead s (addr + BitVec.ofNat 16 k) = .ok bytes[k]) ∧
    (∀ e : FaultKind, readBytes s addr n = .error e ↔ ∃ j, j < n ∧ memRead s (addr + BitVec.ofNat 16 j) = .error e ∧
      ∀ k, k < j → ∃ b, memRead s (addr + BitVec.ofNat 16 k) = .ok b)) ∧
  (∀ (b : Byte) (m : Mnemonic) (f : Format), decodeByte b = some (m, f) → operandCount b = f.operandLength) ∧
  (∀ b : Byte, decodeByte b = none → operandCount b = 0)
end

