-- ==== Sys2Proof/Laws/Memory.lean ====
section
/-!
SUPPORT. Memories: read after write, that a write keeps the canonical form, and that equal contents are equal
memories.
-/

namespace Sys2Proof.Machine

theorem lookupCell_insertCell (l : List Host.Cell) (k j : Nat) (v : Byte) :
    lookupCell (insertCell l k v) j = if k = j then v else lookupCell l j := by
  induction l with
  | nil => simp [insertCell, lookupCell]
  | cons c rest ih =>
    obtain ⟨i, u⟩ := c
    unfold insertCell
    split
    · simp [lookupCell]
    · split
      · next h => subst h; by_cases hj : k = j <;> simp [lookupCell, hj]
      · simp only [lookupCell, ih]; split <;> split <;> simp_all

theorem lookupCell_lt {size lo : Nat} {l : List Host.Cell} (h : cellsWf size lo l = true) {k : Nat}
    (hk : k < lo) : lookupCell l k = Memory.unlisted := by
  induction l generalizing lo with
  | nil => rfl
  | cons c rest ih =>
    obtain ⟨j, u⟩ := c
    simp only [cellsWf, Bool.and_eq_true, decide_eq_true_eq] at h
    have : j ≠ k := by omega
    simp [lookupCell, this, ih h.2 (by omega)]

theorem lookupCell_eraseCell (l : List Host.Cell) (k j : Nat) :
    lookupCell (eraseCell l k) j = if k = j then Memory.unlisted else lookupCell l j := by
  induction l with
  | nil => simp [eraseCell, lookupCell]
  | cons c rest ih =>
    obtain ⟨i, u⟩ := c
    unfold eraseCell
    split
    · next hi => subst hi; rw [ih]; by_cases hj : i = j <;> simp [lookupCell, hj]
    · simp only [lookupCell, ih]; split <;> split <;> simp_all

theorem cellsWf_mono {size lo lo' : Nat} {l : List Host.Cell} (h : cellsWf size lo l = true) (hl : lo' ≤ lo) :
    cellsWf size lo' l = true := by
  cases l with
  | nil => rfl
  | cons c rest =>
    simp only [cellsWf, Bool.and_eq_true, decide_eq_true_eq] at h ⊢
    exact ⟨⟨⟨by omega, h.1.1.2⟩, h.1.2⟩, h.2⟩

theorem cellsWf_insertCell {size lo : Nat} {l : List Host.Cell} (h : cellsWf size lo l = true) {k : Nat} {v : Byte}
    (hlo : lo ≤ k) (hk : k < size) (hv : v ≠ Memory.unlisted) : cellsWf size lo (insertCell l k v) = true := by
  induction l generalizing lo with
  | nil => simp [insertCell, cellsWf, hlo, hk, hv]
  | cons c rest ih =>
    obtain ⟨i, u⟩ := c
    have h' := h
    simp only [cellsWf, Bool.and_eq_true, decide_eq_true_eq] at h
    unfold insertCell
    split
    · next hki =>
      simp only [cellsWf, Bool.and_eq_true, decide_eq_true_eq]
      exact ⟨⟨⟨hlo, hk⟩, hv⟩, ⟨⟨by omega, h.1.1.2⟩, h.1.2⟩, h.2⟩
    · split
      · next hki =>
        subst hki
        simp only [cellsWf, Bool.and_eq_true, decide_eq_true_eq]
        exact ⟨⟨⟨hlo, hk⟩, hv⟩, h.2⟩
      · simp only [cellsWf, Bool.and_eq_true, decide_eq_true_eq]
        exact ⟨h.1, ih h.2 (by omega)⟩

theorem cellsWf_eraseCell {size lo : Nat} {l : List Host.Cell} (h : cellsWf size lo l = true) (k : Nat) :
    cellsWf size lo (eraseCell l k) = true := by
  induction l generalizing lo with
  | nil => rfl
  | cons c rest ih =>
    obtain ⟨i, u⟩ := c
    simp only [cellsWf, Bool.and_eq_true, decide_eq_true_eq] at h
    unfold eraseCell
    split
    · exact cellsWf_mono (ih h.2) (by omega)
    · simp only [cellsWf, Bool.and_eq_true, decide_eq_true_eq]
      exact ⟨h.1, ih h.2⟩

/-- A write keeps the canonical form. -/
theorem Memory.set_wf {size : Nat} {m : Memory} (h : m.wf size = true) {k : Nat} (hk : k < size) (v : Byte) :
    (m.set k v).wf size = true := by
  unfold Memory.wf Memory.set
  split
  · exact cellsWf_eraseCell h k
  · next hv => exact cellsWf_insertCell h (Nat.zero_le k) hk hv

/-- The memory that lists nothing is in canonical form. -/
theorem Memory.empty_wf (size : Nat) : Memory.empty.wf size = true := rfl

/-- Read after write: the written cell gives the value, every other cell what it gave. -/
@[simp] theorem Memory.get_set (m : Memory) (k j : Nat) (v : Byte) :
    (m.set k v).get j = if k = j then v else m.get j := by
  unfold Memory.set Memory.get
  by_cases hv : v = Memory.unlisted
  · simp [hv, lookupCell_eraseCell]
  · simp [hv, lookupCell_insertCell]

theorem cells_ext {size lo : Nat} {l l' : List Host.Cell} (h : cellsWf size lo l = true)
    (h' : cellsWf size lo l' = true) (e : ∀ k, lookupCell l k = lookupCell l' k) : l = l' := by
  induction l generalizing lo l' with
  | nil =>
    cases l' with
    | nil => rfl
    | cons c rest =>
      obtain ⟨i, u⟩ := c
      simp only [cellsWf, Bool.and_eq_true, decide_eq_true_eq] at h'
      have := e i
      simp [lookupCell] at this
      exact absurd this.symm h'.1.2
  | cons c rest ih =>
    obtain ⟨i, u⟩ := c
    have hw := h
    simp only [cellsWf, Bool.and_eq_true, decide_eq_true_eq] at h
    cases l' with
    | nil =>
      have := e i
      simp [lookupCell] at this
      exact absurd this h.1.2
    | cons c' rest' =>
      obtain ⟨j, v⟩ := c'
      have hw' := h'
      simp only [cellsWf, Bool.and_eq_true, decide_eq_true_eq] at h'
      have hij : i = j := by
        rcases Nat.lt_trichotomy i j with hlt | heq | hgt
        · have e1 := e i
          have : lookupCell ((j, v) :: rest') i = Memory.unlisted := by
            have hne : j ≠ i := by omega
            simp [lookupCell, hne, lookupCell_lt h'.2 (show i < j + 1 by omega)]
          rw [this] at e1; simp [lookupCell] at e1; exact absurd e1 h.1.2
        · exact heq
        · have e1 := e j
          have : lookupCell ((i, u) :: rest) j = Memory.unlisted := by
            have hne : i ≠ j := by omega
            simp [lookupCell, hne, lookupCell_lt h.2 (show j < i + 1 by omega)]
          rw [this] at e1; simp [lookupCell] at e1; exact absurd e1.symm h'.1.2
      subst hij
      have huv : u = v := by have := e i; simpa [lookupCell] using this
      subst huv
      congr 1
      refine ih h.2 h'.2 fun k => ?_
      by_cases hk : i = k
      · subst hk; rw [lookupCell_lt h.2 (Nat.lt_succ_self i), lookupCell_lt h'.2 (Nat.lt_succ_self i)]
      · have := e k; simpa [lookupCell, hk] using this

/-- Canonical memories with equal contents are equal. -/
theorem Memory.ext_of_get {size : Nat} {m m' : Memory} (h : m.wf size = true) (h' : m'.wf size = true)
    (e : ∀ k, m.get k = m'.get k) : m = m' := by
  cases m; cases m'; congr 1; exact cells_ext h h' e

end Sys2Proof.Machine
end

