-- ==== Sys2Proof/Laws/State.lean ====
section
/-!
SUPPORT. What every state update does to every field, one lemma each, and to the flags and registers read
through their accessors. Later proofs rewrite with these and unfold no update.
-/

namespace Sys2Proof.Machine

/-! ### setFlag -/

@[simp] theorem State.setFlag_a (s : State) (f : Flag) (b : Bool) : (s.setFlag f b).a = s.a := rfl
@[simp] theorem State.setFlag_x (s : State) (f : Flag) (b : Bool) : (s.setFlag f b).x = s.x := rfl
@[simp] theorem State.setFlag_y (s : State) (f : Flag) (b : Bool) : (s.setFlag f b).y = s.y := rfl
@[simp] theorem State.setFlag_p (s : State) (f : Flag) (b : Bool) : (s.setFlag f b).p = withFlag s.p f b := rfl
@[simp] theorem State.setFlag_pc (s : State) (f : Flag) (b : Bool) : (s.setFlag f b).pc = s.pc := rfl
@[simp] theorem State.setFlag_sp (s : State) (f : Flag) (b : Bool) : (s.setFlag f b).sp = s.sp := rfl
@[simp] theorem State.setFlag_run (s : State) (f : Flag) (b : Bool) : (s.setFlag f b).run = s.run := rfl
@[simp] theorem State.setFlag_log (s : State) (f : Flag) (b : Bool) : (s.setFlag f b).log = s.log := rfl
@[simp] theorem State.setFlag_ram (s : State) (f : Flag) (b : Bool) : (s.setFlag f b).ram = s.ram := rfl
@[simp] theorem State.setFlag_rom (s : State) (f : Flag) (b : Bool) : (s.setFlag f b).rom = s.rom := rfl
@[simp] theorem State.setFlag_reg (s : State) (f : Flag) (b : Bool) (q : Reg) : (s.setFlag f b).reg q = s.reg q := by cases q <;> rfl

/-! ### setP -/

@[simp] theorem State.setP_a (s : State) (v : Byte) : (s.setP v).a = s.a := rfl
@[simp] theorem State.setP_x (s : State) (v : Byte) : (s.setP v).x = s.x := rfl
@[simp] theorem State.setP_y (s : State) (v : Byte) : (s.setP v).y = s.y := rfl
@[simp] theorem State.setP_p (s : State) (v : Byte) : (s.setP v).p = v := rfl
@[simp] theorem State.setP_pc (s : State) (v : Byte) : (s.setP v).pc = s.pc := rfl
@[simp] theorem State.setP_sp (s : State) (v : Byte) : (s.setP v).sp = s.sp := rfl
@[simp] theorem State.setP_run (s : State) (v : Byte) : (s.setP v).run = s.run := rfl
@[simp] theorem State.setP_log (s : State) (v : Byte) : (s.setP v).log = s.log := rfl
@[simp] theorem State.setP_ram (s : State) (v : Byte) : (s.setP v).ram = s.ram := rfl
@[simp] theorem State.setP_rom (s : State) (v : Byte) : (s.setP v).rom = s.rom := rfl
@[simp] theorem State.setP_reg (s : State) (v : Byte) (q : Reg) : (s.setP v).reg q = s.reg q := by cases q <;> rfl

/-! ### setSp -/

@[simp] theorem State.setSp_a (s : State) (v : Byte) : (s.setSp v).a = s.a := rfl
@[simp] theorem State.setSp_x (s : State) (v : Byte) : (s.setSp v).x = s.x := rfl
@[simp] theorem State.setSp_y (s : State) (v : Byte) : (s.setSp v).y = s.y := rfl
@[simp] theorem State.setSp_p (s : State) (v : Byte) : (s.setSp v).p = s.p := rfl
@[simp] theorem State.setSp_pc (s : State) (v : Byte) : (s.setSp v).pc = s.pc := rfl
@[simp] theorem State.setSp_sp (s : State) (v : Byte) : (s.setSp v).sp = v := rfl
@[simp] theorem State.setSp_run (s : State) (v : Byte) : (s.setSp v).run = s.run := rfl
@[simp] theorem State.setSp_log (s : State) (v : Byte) : (s.setSp v).log = s.log := rfl
@[simp] theorem State.setSp_ram (s : State) (v : Byte) : (s.setSp v).ram = s.ram := rfl
@[simp] theorem State.setSp_rom (s : State) (v : Byte) : (s.setSp v).rom = s.rom := rfl
@[simp] theorem State.setSp_flag (s : State) (v : Byte) (g : Flag) : (s.setSp v).flag g = s.flag g := rfl
@[simp] theorem State.setSp_reg (s : State) (v : Byte) (q : Reg) : (s.setSp v).reg q = s.reg q := by cases q <;> rfl

/-! ### setPc -/

@[simp] theorem State.setPc_a (s : State) (w : Word) : (s.setPc w).a = s.a := rfl
@[simp] theorem State.setPc_x (s : State) (w : Word) : (s.setPc w).x = s.x := rfl
@[simp] theorem State.setPc_y (s : State) (w : Word) : (s.setPc w).y = s.y := rfl
@[simp] theorem State.setPc_p (s : State) (w : Word) : (s.setPc w).p = s.p := rfl
@[simp] theorem State.setPc_pc (s : State) (w : Word) : (s.setPc w).pc = w := rfl
@[simp] theorem State.setPc_sp (s : State) (w : Word) : (s.setPc w).sp = s.sp := rfl
@[simp] theorem State.setPc_run (s : State) (w : Word) : (s.setPc w).run = s.run := rfl
@[simp] theorem State.setPc_log (s : State) (w : Word) : (s.setPc w).log = s.log := rfl
@[simp] theorem State.setPc_ram (s : State) (w : Word) : (s.setPc w).ram = s.ram := rfl
@[simp] theorem State.setPc_rom (s : State) (w : Word) : (s.setPc w).rom = s.rom := rfl
@[simp] theorem State.setPc_flag (s : State) (w : Word) (g : Flag) : (s.setPc w).flag g = s.flag g := rfl
@[simp] theorem State.setPc_reg (s : State) (w : Word) (q : Reg) : (s.setPc w).reg q = s.reg q := by cases q <;> rfl

/-! ### advance -/

@[simp] theorem State.advance_a (s : State) (n : Nat) : (s.advance n).a = s.a := rfl
@[simp] theorem State.advance_x (s : State) (n : Nat) : (s.advance n).x = s.x := rfl
@[simp] theorem State.advance_y (s : State) (n : Nat) : (s.advance n).y = s.y := rfl
@[simp] theorem State.advance_p (s : State) (n : Nat) : (s.advance n).p = s.p := rfl
@[simp] theorem State.advance_pc (s : State) (n : Nat) : (s.advance n).pc = s.pc + BitVec.ofNat 16 n := rfl
@[simp] theorem State.advance_sp (s : State) (n : Nat) : (s.advance n).sp = s.sp := rfl
@[simp] theorem State.advance_run (s : State) (n : Nat) : (s.advance n).run = s.run := rfl
@[simp] theorem State.advance_log (s : State) (n : Nat) : (s.advance n).log = s.log := rfl
@[simp] theorem State.advance_ram (s : State) (n : Nat) : (s.advance n).ram = s.ram := rfl
@[simp] theorem State.advance_rom (s : State) (n : Nat) : (s.advance n).rom = s.rom := rfl
@[simp] theorem State.advance_flag (s : State) (n : Nat) (g : Flag) : (s.advance n).flag g = s.flag g := rfl
@[simp] theorem State.advance_reg (s : State) (n : Nat) (q : Reg) : (s.advance n).reg q = s.reg q := by cases q <;> rfl

/-! ### halt -/

@[simp] theorem State.halt_a (s : State) : (s.halt).a = s.a := rfl
@[simp] theorem State.halt_x (s : State) : (s.halt).x = s.x := rfl
@[simp] theorem State.halt_y (s : State) : (s.halt).y = s.y := rfl
@[simp] theorem State.halt_p (s : State) : (s.halt).p = s.p := rfl
@[simp] theorem State.halt_pc (s : State) : (s.halt).pc = s.pc := rfl
@[simp] theorem State.halt_sp (s : State) : (s.halt).sp = s.sp := rfl
@[simp] theorem State.halt_run (s : State) : (s.halt).run = .halted := rfl
@[simp] theorem State.halt_log (s : State) : (s.halt).log = s.log := rfl
@[simp] theorem State.halt_ram (s : State) : (s.halt).ram = s.ram := rfl
@[simp] theorem State.halt_rom (s : State) : (s.halt).rom = s.rom := rfl
@[simp] theorem State.halt_flag (s : State) (g : Flag) : (s.halt).flag g = s.flag g := rfl
@[simp] theorem State.halt_reg (s : State) (q : Reg) : (s.halt).reg q = s.reg q := by cases q <;> rfl

/-! ### raise -/

@[simp] theorem State.raise_a (s : State) (k : FaultKind) : (s.raise k).a = s.a := rfl
@[simp] theorem State.raise_x (s : State) (k : FaultKind) : (s.raise k).x = s.x := rfl
@[simp] theorem State.raise_y (s : State) (k : FaultKind) : (s.raise k).y = s.y := rfl
@[simp] theorem State.raise_p (s : State) (k : FaultKind) : (s.raise k).p = s.p := rfl
@[simp] theorem State.raise_pc (s : State) (k : FaultKind) : (s.raise k).pc = s.pc := rfl
@[simp] theorem State.raise_sp (s : State) (k : FaultKind) : (s.raise k).sp = s.sp := rfl
@[simp] theorem State.raise_run (s : State) (k : FaultKind) : (s.raise k).run = .faulted k := rfl
@[simp] theorem State.raise_log (s : State) (k : FaultKind) : (s.raise k).log = s.log := rfl
@[simp] theorem State.raise_ram (s : State) (k : FaultKind) : (s.raise k).ram = s.ram := rfl
@[simp] theorem State.raise_rom (s : State) (k : FaultKind) : (s.raise k).rom = s.rom := rfl
@[simp] theorem State.raise_flag (s : State) (k : FaultKind) (g : Flag) : (s.raise k).flag g = s.flag g := rfl
@[simp] theorem State.raise_reg (s : State) (k : FaultKind) (q : Reg) : (s.raise k).reg q = s.reg q := by cases q <;> rfl

/-! ### diag -/

@[simp] theorem State.diag_a (s : State) (d : Diag) : (s.diag d).a = s.a := rfl
@[simp] theorem State.diag_x (s : State) (d : Diag) : (s.diag d).x = s.x := rfl
@[simp] theorem State.diag_y (s : State) (d : Diag) : (s.diag d).y = s.y := rfl
@[simp] theorem State.diag_p (s : State) (d : Diag) : (s.diag d).p = s.p := rfl
@[simp] theorem State.diag_pc (s : State) (d : Diag) : (s.diag d).pc = s.pc := rfl
@[simp] theorem State.diag_sp (s : State) (d : Diag) : (s.diag d).sp = s.sp := rfl
@[simp] theorem State.diag_run (s : State) (d : Diag) : (s.diag d).run = s.run := rfl
@[simp] theorem State.diag_log (s : State) (d : Diag) : (s.diag d).log = s.log ++ [d] := rfl
@[simp] theorem State.diag_ram (s : State) (d : Diag) : (s.diag d).ram = s.ram := rfl
@[simp] theorem State.diag_rom (s : State) (d : Diag) : (s.diag d).rom = s.rom := rfl
@[simp] theorem State.diag_flag (s : State) (d : Diag) (g : Flag) : (s.diag d).flag g = s.flag g := rfl
@[simp] theorem State.diag_reg (s : State) (d : Diag) (q : Reg) : (s.diag d).reg q = s.reg q := by cases q <;> rfl

/-! ### setZN -/

@[simp] theorem State.setZN_a (s : State) (v : Byte) : (s.setZN v).a = s.a := rfl
@[simp] theorem State.setZN_x (s : State) (v : Byte) : (s.setZN v).x = s.x := rfl
@[simp] theorem State.setZN_y (s : State) (v : Byte) : (s.setZN v).y = s.y := rfl
@[simp] theorem State.setZN_pc (s : State) (v : Byte) : (s.setZN v).pc = s.pc := rfl
@[simp] theorem State.setZN_sp (s : State) (v : Byte) : (s.setZN v).sp = s.sp := rfl
@[simp] theorem State.setZN_run (s : State) (v : Byte) : (s.setZN v).run = s.run := rfl
@[simp] theorem State.setZN_log (s : State) (v : Byte) : (s.setZN v).log = s.log := rfl
@[simp] theorem State.setZN_ram (s : State) (v : Byte) : (s.setZN v).ram = s.ram := rfl
@[simp] theorem State.setZN_rom (s : State) (v : Byte) : (s.setZN v).rom = s.rom := rfl
@[simp] theorem State.setZN_reg (s : State) (v : Byte) (q : Reg) : (s.setZN v).reg q = s.reg q := by cases q <;> rfl

/-! ### compareFlags -/

@[simp] theorem State.compareFlags_a (s : State) (r m : Byte) : (s.compareFlags r m).a = s.a := rfl
@[simp] theorem State.compareFlags_x (s : State) (r m : Byte) : (s.compareFlags r m).x = s.x := rfl
@[simp] theorem State.compareFlags_y (s : State) (r m : Byte) : (s.compareFlags r m).y = s.y := rfl
@[simp] theorem State.compareFlags_pc (s : State) (r m : Byte) : (s.compareFlags r m).pc = s.pc := rfl
@[simp] theorem State.compareFlags_sp (s : State) (r m : Byte) : (s.compareFlags r m).sp = s.sp := rfl
@[simp] theorem State.compareFlags_run (s : State) (r m : Byte) : (s.compareFlags r m).run = s.run := rfl
@[simp] theorem State.compareFlags_log (s : State) (r m : Byte) : (s.compareFlags r m).log = s.log := rfl
@[simp] theorem State.compareFlags_ram (s : State) (r m : Byte) : (s.compareFlags r m).ram = s.ram := rfl
@[simp] theorem State.compareFlags_rom (s : State) (r m : Byte) : (s.compareFlags r m).rom = s.rom := rfl
@[simp] theorem State.compareFlags_reg (s : State) (r m : Byte) (q : Reg) : (s.compareFlags r m).reg q = s.reg q := by cases q <;> rfl

/-! ### bitFlags -/

@[simp] theorem State.bitFlags_a (s : State) (m : Byte) : (s.bitFlags m).a = s.a := rfl
@[simp] theorem State.bitFlags_x (s : State) (m : Byte) : (s.bitFlags m).x = s.x := rfl
@[simp] theorem State.bitFlags_y (s : State) (m : Byte) : (s.bitFlags m).y = s.y := rfl
@[simp] theorem State.bitFlags_pc (s : State) (m : Byte) : (s.bitFlags m).pc = s.pc := rfl
@[simp] theorem State.bitFlags_sp (s : State) (m : Byte) : (s.bitFlags m).sp = s.sp := rfl
@[simp] theorem State.bitFlags_run (s : State) (m : Byte) : (s.bitFlags m).run = s.run := rfl
@[simp] theorem State.bitFlags_log (s : State) (m : Byte) : (s.bitFlags m).log = s.log := rfl
@[simp] theorem State.bitFlags_ram (s : State) (m : Byte) : (s.bitFlags m).ram = s.ram := rfl
@[simp] theorem State.bitFlags_rom (s : State) (m : Byte) : (s.bitFlags m).rom = s.rom := rfl
@[simp] theorem State.bitFlags_reg (s : State) (m : Byte) (q : Reg) : (s.bitFlags m).reg q = s.reg q := by cases q <;> rfl

/-! ### shiftFlags -/

@[simp] theorem State.shiftFlags_a (s : State) (k : ShiftKind) (v r : Byte) : (s.shiftFlags k v r).a = s.a := rfl
@[simp] theorem State.shiftFlags_x (s : State) (k : ShiftKind) (v r : Byte) : (s.shiftFlags k v r).x = s.x := rfl
@[simp] theorem State.shiftFlags_y (s : State) (k : ShiftKind) (v r : Byte) : (s.shiftFlags k v r).y = s.y := rfl
@[simp] theorem State.shiftFlags_pc (s : State) (k : ShiftKind) (v r : Byte) : (s.shiftFlags k v r).pc = s.pc := rfl
@[simp] theorem State.shiftFlags_sp (s : State) (k : ShiftKind) (v r : Byte) : (s.shiftFlags k v r).sp = s.sp := rfl
@[simp] theorem State.shiftFlags_run (s : State) (k : ShiftKind) (v r : Byte) : (s.shiftFlags k v r).run = s.run := rfl
@[simp] theorem State.shiftFlags_log (s : State) (k : ShiftKind) (v r : Byte) : (s.shiftFlags k v r).log = s.log := rfl
@[simp] theorem State.shiftFlags_ram (s : State) (k : ShiftKind) (v r : Byte) : (s.shiftFlags k v r).ram = s.ram := rfl
@[simp] theorem State.shiftFlags_rom (s : State) (k : ShiftKind) (v r : Byte) : (s.shiftFlags k v r).rom = s.rom := rfl
@[simp] theorem State.shiftFlags_reg (s : State) (k : ShiftKind) (v r : Byte) (q : Reg) : (s.shiftFlags k v r).reg q = s.reg q := by cases q <;> rfl

/-! ### addToA -/

@[simp] theorem State.addToA_a (s : State) (m : Byte) : (s.addToA m).a = adcResult s.a m (s.flag .C) := rfl
@[simp] theorem State.addToA_x (s : State) (m : Byte) : (s.addToA m).x = s.x := rfl
@[simp] theorem State.addToA_y (s : State) (m : Byte) : (s.addToA m).y = s.y := rfl
@[simp] theorem State.addToA_pc (s : State) (m : Byte) : (s.addToA m).pc = s.pc := rfl
@[simp] theorem State.addToA_sp (s : State) (m : Byte) : (s.addToA m).sp = s.sp := rfl
@[simp] theorem State.addToA_run (s : State) (m : Byte) : (s.addToA m).run = s.run := rfl
@[simp] theorem State.addToA_log (s : State) (m : Byte) : (s.addToA m).log = s.log := rfl
@[simp] theorem State.addToA_ram (s : State) (m : Byte) : (s.addToA m).ram = s.ram := rfl
@[simp] theorem State.addToA_rom (s : State) (m : Byte) : (s.addToA m).rom = s.rom := rfl

/-! ### diagIf and setReg, whose shape depends on an argument -/

@[simp] theorem State.diagIf_a (s : State) (b : Bool) (op : StackOp) : (s.diagIf b op).a = s.a := by cases b <;> rfl
@[simp] theorem State.diagIf_x (s : State) (b : Bool) (op : StackOp) : (s.diagIf b op).x = s.x := by cases b <;> rfl
@[simp] theorem State.diagIf_y (s : State) (b : Bool) (op : StackOp) : (s.diagIf b op).y = s.y := by cases b <;> rfl
@[simp] theorem State.diagIf_p (s : State) (b : Bool) (op : StackOp) : (s.diagIf b op).p = s.p := by cases b <;> rfl
@[simp] theorem State.diagIf_pc (s : State) (b : Bool) (op : StackOp) : (s.diagIf b op).pc = s.pc := by cases b <;> rfl
@[simp] theorem State.diagIf_sp (s : State) (b : Bool) (op : StackOp) : (s.diagIf b op).sp = s.sp := by cases b <;> rfl
@[simp] theorem State.diagIf_run (s : State) (b : Bool) (op : StackOp) : (s.diagIf b op).run = s.run := by cases b <;> rfl
@[simp] theorem State.diagIf_log (s : State) (b : Bool) (op : StackOp) :
    (s.diagIf b op).log = s.log ++ (if b then [.stackWrap op] else []) := by cases b <;> simp [State.diagIf]
@[simp] theorem State.diagIf_ram (s : State) (b : Bool) (op : StackOp) : (s.diagIf b op).ram = s.ram := by cases b <;> rfl
@[simp] theorem State.diagIf_rom (s : State) (b : Bool) (op : StackOp) : (s.diagIf b op).rom = s.rom := by cases b <;> rfl
@[simp] theorem State.diagIf_flag (s : State) (b : Bool) (op : StackOp) (g : Flag) : (s.diagIf b op).flag g = s.flag g := by cases b <;> rfl
@[simp] theorem State.diagIf_reg (s : State) (b : Bool) (op : StackOp) (q : Reg) : (s.diagIf b op).reg q = s.reg q := by cases b <;> cases q <;> rfl

@[simp] theorem State.setReg_p (s : State) (r : Reg) (v : Byte) : (s.setReg r v).p = s.p := by cases r <;> rfl
@[simp] theorem State.setReg_pc (s : State) (r : Reg) (v : Byte) : (s.setReg r v).pc = s.pc := by cases r <;> rfl
@[simp] theorem State.setReg_sp (s : State) (r : Reg) (v : Byte) : (s.setReg r v).sp = s.sp := by cases r <;> rfl
@[simp] theorem State.setReg_run (s : State) (r : Reg) (v : Byte) : (s.setReg r v).run = s.run := by cases r <;> rfl
@[simp] theorem State.setReg_log (s : State) (r : Reg) (v : Byte) : (s.setReg r v).log = s.log := by cases r <;> rfl
@[simp] theorem State.setReg_ram (s : State) (r : Reg) (v : Byte) : (s.setReg r v).ram = s.ram := by cases r <;> rfl
@[simp] theorem State.setReg_rom (s : State) (r : Reg) (v : Byte) : (s.setReg r v).rom = s.rom := by cases r <;> rfl
@[simp] theorem State.setReg_A_a (s : State) (v : Byte) : (s.setReg .A v).a = v := rfl
@[simp] theorem State.setReg_A_x (s : State) (v : Byte) : (s.setReg .A v).x = s.x := rfl
@[simp] theorem State.setReg_A_y (s : State) (v : Byte) : (s.setReg .A v).y = s.y := rfl
@[simp] theorem State.setReg_X_a (s : State) (v : Byte) : (s.setReg .X v).a = s.a := rfl
@[simp] theorem State.setReg_X_x (s : State) (v : Byte) : (s.setReg .X v).x = v := rfl
@[simp] theorem State.setReg_X_y (s : State) (v : Byte) : (s.setReg .X v).y = s.y := rfl
@[simp] theorem State.setReg_Y_a (s : State) (v : Byte) : (s.setReg .Y v).a = s.a := rfl
@[simp] theorem State.setReg_Y_x (s : State) (v : Byte) : (s.setReg .Y v).x = s.x := rfl
@[simp] theorem State.setReg_Y_y (s : State) (v : Byte) : (s.setReg .Y v).y = v := rfl
@[simp] theorem State.setReg_flag (s : State) (r : Reg) (v : Byte) (g : Flag) : (s.setReg r v).flag g = s.flag g := by cases r <;> rfl
@[simp] theorem State.setReg_reg (s : State) (r : Reg) (v : Byte) (q : Reg) :
    (s.setReg r v).reg q = if q = r then v else s.reg q := by cases r <;> cases q <;> rfl

@[simp] theorem State.reg_A (s : State) : s.reg .A = s.a := rfl
@[simp] theorem State.reg_X (s : State) : s.reg .X = s.x := rfl
@[simp] theorem State.reg_Y (s : State) : s.reg .Y = s.y := rfl

/-! ### RAM and log replaced by a write -/

@[simp] theorem State.withRam_a (s : State) (m : Memory) : ({ s with ram := m } : State).a = s.a := rfl
@[simp] theorem State.withRam_x (s : State) (m : Memory) : ({ s with ram := m } : State).x = s.x := rfl
@[simp] theorem State.withRam_y (s : State) (m : Memory) : ({ s with ram := m } : State).y = s.y := rfl
@[simp] theorem State.withRam_p (s : State) (m : Memory) : ({ s with ram := m } : State).p = s.p := rfl
@[simp] theorem State.withRam_pc (s : State) (m : Memory) : ({ s with ram := m } : State).pc = s.pc := rfl
@[simp] theorem State.withRam_sp (s : State) (m : Memory) : ({ s with ram := m } : State).sp = s.sp := rfl
@[simp] theorem State.withRam_run (s : State) (m : Memory) : ({ s with ram := m } : State).run = s.run := rfl
@[simp] theorem State.withRam_log (s : State) (m : Memory) : ({ s with ram := m } : State).log = s.log := rfl
@[simp] theorem State.withRam_ram (s : State) (m : Memory) : ({ s with ram := m } : State).ram = m := rfl
@[simp] theorem State.withRam_rom (s : State) (m : Memory) : ({ s with ram := m } : State).rom = s.rom := rfl
@[simp] theorem State.withRam_flag (s : State) (m : Memory) (g : Flag) : ({ s with ram := m } : State).flag g = s.flag g := rfl
@[simp] theorem State.withRam_reg (s : State) (m : Memory) (q : Reg) : ({ s with ram := m } : State).reg q = s.reg q := by cases q <;> rfl

end Sys2Proof.Machine
end

