-- ==== Sys2Proof/Laws/Arbiter.lean ====
section
/-!
SUPPORT. The memory arbiter (R30 to R38): the four regions, everything a read and a write can do, and that a
read sees only the two memories.
-/

namespace Sys2Proof.Machine

/-! ### Regions -/

theorem region_ram_iff (a : Word) : region a = .ram ↔ a.toNat < 0x2000 := by
  unfold region; split_ifs <;> simp <;> omega

theorem region_ppu_iff (a : Word) : region a = .ppu ↔ 0x2000 ≤ a.toNat ∧ a.toNat < 0x4000 := by
  unfold region; split_ifs <;> simp <;> omega

theorem region_ignored_iff (a : Word) : region a = .ignored ↔ 0x4000 ≤ a.toNat ∧ a.toNat < 0x8000 := by
  unfold region; split_ifs <;> simp <;> omega

theorem region_rom_iff (a : Word) : region a = .rom ↔ 0x8000 ≤ a.toNat := by
  unfold region; split_ifs <;> simp <;> omega

/-- The mask to 11 bits is the remainder modulo 2 KiB (R33). -/
theorem ramCell_eq (a : Word) : ramCell a = a.toNat % 0x0800 := by
  unfold ramCell
  rw [BitVec.toNat_and]
  exact Nat.and_two_pow_sub_one_eq_mod a.toNat 11

theorem ramCell_lt (a : Word) : ramCell a < Config.ramSize := by
  rw [ramCell_eq]; exact Nat.mod_lt _ (by decide)

theorem romCell_lt (a : Word) : romCell a < Config.romSize := by
  have := a.isLt
  unfold romCell Config.romSize; omega

/-! ### Reads -/

theorem memRead_ram {a : Word} (h : a.toNat < 0x2000) (s : State) :
    memRead s a = .ok (s.ram.get (a.toNat % 0x0800)) := by
  simp [memRead, (region_ram_iff a).2 h, ramCell_eq]

theorem memRead_ppu {a : Word} (h : 0x2000 ≤ a.toNat ∧ a.toNat < 0x4000) (s : State) :
    memRead s a = .error (.unsupportedRegion a .read) := by
  simp [memRead, (region_ppu_iff a).2 h]

theorem memRead_ignored {a : Word} (h : 0x4000 ≤ a.toNat ∧ a.toNat < 0x8000) (s : State) :
    memRead s a = .ok 0#8 := by
  simp [memRead, (region_ignored_iff a).2 h]

theorem memRead_rom {a : Word} (h : 0x8000 ≤ a.toNat) (s : State) :
    memRead s a = .ok (s.rom.get (a.toNat - 0x8000)) := by
  unfold memRead; rw [(region_rom_iff a).2 h]; rfl

/-- A read sees the two memories and nothing else of the state (R41). -/
theorem memRead_congr {s t : State} (hr : t.ram = s.ram) (ho : t.rom = s.rom) (a : Word) :
    memRead t a = memRead s a := by
  simp [memRead, hr, ho]

theorem sameMemory_of_eq {s t : State} (hr : t.ram = s.ram) (ho : t.rom = s.rom) : SameMemory s t :=
  memRead_congr hr ho

/-- The only fault of a read is UnsupportedRegion, at the address read (R34, R202). -/
theorem memRead_error {s : State} {a : Word} {k : FaultKind} (h : memRead s a = .error k) :
    k = .unsupportedRegion a .read ∧ 0x2000 ≤ a.toNat ∧ a.toNat < 0x4000 := by
  cases hr : region a <;> simp only [memRead, hr] at h <;> cases h
  exact ⟨rfl, (region_ppu_iff a).1 hr⟩

/-! ### Writes -/

/-- Everything a completed write can do: a RAM cell changes, or the write is logged and dropped (R33, R35). -/
theorem memWrite_cases {s t : State} {a : Word} {v : Byte} (h : memWrite s a v = .ok t) :
    (a.toNat < 0x2000 ∧ t = { s with ram := s.ram.set (a.toNat % 0x0800) v }) ∨
    ((0x4000 ≤ a.toNat ∧ a.toNat < 0x8000) ∧ t = s.diag (.ignoredWrite a v)) := by
  cases hr : region a <;> simp only [memWrite, hr] at h <;> cases h
  · exact .inl ⟨(region_ram_iff a).1 hr, by rw [ramCell_eq]⟩
  · exact .inr ⟨(region_ignored_iff a).1 hr, rfl⟩

/-- Everything a write that faults can be (R34, R36). -/
theorem memWrite_error {s : State} {a : Word} {v : Byte} {k : FaultKind} (h : memWrite s a v = .error k) :
    (k = .unsupportedRegion a .write ∧ 0x2000 ≤ a.toNat ∧ a.toNat < 0x4000) ∨
    (k = .romWriteViolation a v ∧ 0x8000 ≤ a.toNat) := by
  cases hr : region a <;> simp only [memWrite, hr] at h <;> cases h
  · exact .inl ⟨rfl, (region_ppu_iff a).1 hr⟩
  · exact .inr ⟨rfl, (region_rom_iff a).1 hr⟩

theorem memWrite_ram {a : Word} (h : a.toNat < 0x2000) (s : State) (v : Byte) :
    memWrite s a v = .ok { s with ram := s.ram.set (a.toNat % 0x0800) v } := by
  simp [memWrite, (region_ram_iff a).2 h, ramCell_eq]

theorem memWrite_ppu {a : Word} (h : 0x2000 ≤ a.toNat ∧ a.toNat < 0x4000) (s : State) (v : Byte) :
    memWrite s a v = .error (.unsupportedRegion a .write) := by
  simp [memWrite, (region_ppu_iff a).2 h]

theorem memWrite_ignored {a : Word} (h : 0x4000 ≤ a.toNat ∧ a.toNat < 0x8000) (s : State) (v : Byte) :
    memWrite s a v = .ok (s.diag (.ignoredWrite a v)) := by
  simp [memWrite, (region_ignored_iff a).2 h]

theorem memWrite_rom {a : Word} (h : 0x8000 ≤ a.toNat) (s : State) (v : Byte) :
    memWrite s a v = .error (.romWriteViolation a v) := by
  simp [memWrite, (region_rom_iff a).2 h]

/-- A write changes no register, flag, SP, PC or run state, and no ROM cell (R41). -/
theorem memWrite_frame {s t : State} {a : Word} {v : Byte} (h : memWrite s a v = .ok t) :
    t.a = s.a ∧ t.x = s.x ∧ t.y = s.y ∧ t.p = s.p ∧ t.pc = s.pc ∧ t.sp = s.sp ∧ t.run = s.run ∧ t.rom = s.rom := by
  rcases memWrite_cases h with ⟨-, rfl⟩ | ⟨-, rfl⟩ <;> simp

/-- A write leaves every general register (R41). -/
theorem memWrite_reg {s t : State} {a : Word} {v : Byte} (h : memWrite s a v = .ok t) (q : Reg) :
    t.reg q = s.reg q := by
  rcases memWrite_cases h with ⟨-, rfl⟩ | ⟨-, rfl⟩ <;> cases q <;> rfl

/-- A write leaves every flag (R41). -/
theorem memWrite_flag {s t : State} {a : Word} {v : Byte} (h : memWrite s a v = .ok t) (f : Flag) :
    t.flag f = s.flag f := by
  rcases memWrite_cases h with ⟨-, rfl⟩ | ⟨-, rfl⟩ <;> rfl

/-- Reading after a RAM write: the aliases of the address give the byte, all else is as before (R33). -/
theorem memRead_withRam (s : State) (a b : Word) (v : Byte) (ha : a.toNat < 0x2000) :
    (Aliases b a → memRead { s with ram := s.ram.set (a.toNat % 0x0800) v } b = .ok v) ∧
    (¬ Aliases b a → memRead { s with ram := s.ram.set (a.toNat % 0x0800) v } b = memRead s b) := by
  constructor
  · rintro ⟨hb, -, he⟩
    simp [memRead_ram hb, he]
  · intro hn
    by_cases hb : b.toNat < 0x2000
    · have : ¬ a.toNat % 0x0800 = b.toNat % 0x0800 := fun he => hn ⟨hb, ha, he.symm⟩
      simp [memRead_ram hb, this]
    · have hne : region b ≠ .ram := fun h => hb ((region_ram_iff b).1 h)
      cases hr : region b <;> simp only [memRead, hr]
      exact absurd hr hne

/-- The whole effect of a completed write on memory and log. -/
theorem byteStored_of_memWrite {s t : State} {a : Word} {v : Byte} (h : memWrite s a v = .ok t) :
    ByteStored a v s t := by
  rcases memWrite_cases h with ⟨ha, rfl⟩ | ⟨ha, rfl⟩
  · exact ⟨fun _ => ⟨fun b => (memRead_withRam s a b v ha).1, fun b => (memRead_withRam s a b v ha).2, rfl⟩,
      fun h' => absurd h'.1 (by omega)⟩
  · exact ⟨fun h' => absurd h' (by omega), fun _ => ⟨sameMemory_of_eq rfl rfl, rfl⟩⟩

/-- A write to a writable address completes (R32). -/
theorem memWrite_of_writable {a : Word} (h : Writable a) (s : State) (v : Byte) :
    ∃ t, memWrite s a v = .ok t := by
  rcases h with h | h
  · exact ⟨_, memWrite_ram h s v⟩
  · exact ⟨_, memWrite_ignored h s v⟩

/-- A completed write keeps both memories in canonical form. -/
theorem memWrite_wf {s t : State} {a : Word} {v : Byte} (h : memWrite s a v = .ok t) (hw : s.MemoriesWf) :
    t.MemoriesWf := by
  rcases memWrite_cases h with ⟨-, rfl⟩ | ⟨-, rfl⟩
  · exact ⟨Memory.set_wf hw.1 (Nat.mod_lt _ (by decide)) v, hw.2⟩
  · exact hw

/-- A completed write only appends to the log (R16). -/
theorem memWrite_log {s t : State} {a : Word} {v : Byte} (h : memWrite s a v = .ok t) : s.log <+: t.log := by
  rcases memWrite_cases h with ⟨-, rfl⟩ | ⟨-, rfl⟩ <;> simp

end Sys2Proof.Machine
end

