-- ==== Sys2Proof/Laws/Flags.lean ====
section
/-!
SUPPORT. The flag laws: what each flag update leaves in each flag, and that the carry and overflow of ADC and
SBC are the unsigned and signed overflow of the exact sum and difference (R122, R123).
-/

namespace Sys2Proof.Machine

/-- Writing one flag writes it and leaves the other seven (R12). -/
@[simp] theorem flagOf_withFlag (p : Byte) (f g : Flag) (b : Bool) :
    flagOf (withFlag p f b) g = if g = f then b else flagOf p g := by
  cases f <;> cases g <;> cases b <;> simp [withFlag, flagOf, Flag.mask, Flag.bit]

@[simp] theorem State.setFlag_flag (s : State) (f g : Flag) (b : Bool) :
    (s.setFlag f b).flag g = if g = f then b else s.flag g := flagOf_withFlag s.p f g b

@[simp] theorem State.setP_flag (s : State) (v : Byte) (g : Flag) : (s.setP v).flag g = flagOf v g := rfl

/-- `SetZN` writes Z and N and no other flag (R8). -/
@[simp] theorem State.setZN_flag (s : State) (v : Byte) (g : Flag) :
    (s.setZN v).flag g = if g = .N then v.getLsbD 7 else if g = .Z then v == 0#8 else s.flag g := by
  simp [State.setZN]

@[simp] theorem State.compareFlags_flag (s : State) (r m : Byte) (g : Flag) :
    (s.compareFlags r m).flag g =
      if g = .N then (r - m).getLsbD 7 else if g = .Z then r - m == 0#8
      else if g = .C then decide (m.toNat ≤ r.toNat) else s.flag g := by
  simp [State.compareFlags]

@[simp] theorem State.bitFlags_flag (s : State) (m : Byte) (g : Flag) :
    (s.bitFlags m).flag g =
      if g = .V then m.getLsbD 6 else if g = .N then m.getLsbD 7
      else if g = .Z then s.a &&& m == 0#8 else s.flag g := by
  simp [State.bitFlags]

@[simp] theorem State.shiftFlags_flag (s : State) (k : ShiftKind) (v r : Byte) (g : Flag) :
    (s.shiftFlags k v r).flag g =
      if g = .N then r.getLsbD 7 else if g = .Z then r == 0#8
      else if g = .C then k.carryOut v else s.flag g := by
  simp [State.shiftFlags]

@[simp] theorem State.addToA_flag (s : State) (m : Byte) (g : Flag) :
    (s.addToA m).flag g =
      if g = .N then (adcResult s.a m (s.flag .C)).getLsbD 7
      else if g = .Z then adcResult s.a m (s.flag .C) == 0#8
      else if g = .V then adcOverflow s.a m (s.flag .C)
      else if g = .C then adcCarry s.a m (s.flag .C) else s.flag g := by
  show (State.setZN { (s.setFlag .C _).setFlag .V _ with a := _ } _).flag g = _
  rw [State.setZN_flag]
  cases g <;> simp [State.flag, State.setFlag]

@[simp] theorem State.addToA_reg (s : State) (m : Byte) (q : Reg) :
    (s.addToA m).reg q = if q = .A then adcResult s.a m (s.flag .C) else s.reg q := by
  cases q <;> rfl

/-- The result of ADC is the exact sum modulo 256 (R122). -/
theorem adcResult_toNat (a m : Byte) (c : Bool) :
    (adcResult a m c).toNat = (a.toNat + m.toNat + carryNat c) % 256 := by
  simp [adcResult, adcSum]

/-- V after ADC is the sign of the sum differing from both operands' (R122). -/
theorem adcOverflow_eq_signs (a m : Byte) (c : Bool) :
    adcOverflow a m c = ((m.getLsbD 7 ^^ (adcResult a m c).getLsbD 7) &&
      ((adcResult a m c).getLsbD 7 ^^ a.getLsbD 7)) := by
  have mask (w : Byte) : (w &&& 0x80#8 != 0#8) = w.getLsbD 7 := by revert w; decide
  unfold adcOverflow
  rw [mask, BitVec.getLsbD_and, BitVec.getLsbD_xor, BitVec.getLsbD_xor]

/-- Bit 7 of a byte as a bound on its value. -/
theorem bit7_iff (w : Byte) : w.getLsbD 7 = true ↔ 128 ≤ w.toNat := by revert w; decide

/-- The two's-complement value of a byte. -/
theorem toInt_eq (w : Byte) : w.toInt = if 128 ≤ w.toNat then (w.toNat : Int) - 256 else w.toNat := by
  rw [BitVec.toInt_eq_toNat_cond]; split <;> split <;> omega

/-- V after ADC: the signed sum of A, M and the carry lies outside -128 to 127 (R122, corner cases). -/
theorem adcOverflow_iff_signed (a m : Byte) (c : Bool) :
    adcOverflow a m c = true ↔
      a.toInt + m.toInt + carryNat c < -128 ∨ 127 < a.toInt + m.toInt + carryNat c := by
  have hr := adcResult_toNat a m c
  have ha := bit7_iff a
  have hm := bit7_iff m
  have hs := bit7_iff (adcResult a m c)
  have hc : carryNat c ≤ 1 := by cases c <;> decide
  have la := a.isLt
  have lm := m.isLt
  rw [adcOverflow_eq_signs, toInt_eq a, toInt_eq m]
  by_cases ga : 128 ≤ a.toNat <;> by_cases gm : 128 ≤ m.toNat <;>
    by_cases gs : 128 ≤ (adcResult a m c).toNat <;>
    simp only [ga, gm, gs, iff_true, iff_false, Bool.not_eq_true] at ha hm hs <;>
    simp only [ha, hm, hs, ga, gm, if_true, if_false] <;> simp <;> omega

/-- The complement SBC adds has value 255 minus its operand (R123). -/
theorem sbcAddend_toNat (m : Byte) : (sbcAddend m).toNat = 255 - m.toNat := by revert m; decide

/-- The complement SBC adds as a signed value (R123). -/
theorem sbcAddend_toInt (m : Byte) : (sbcAddend m).toInt = -1 - m.toInt := by revert m; decide

end Sys2Proof.Machine
end

