-- ==== Sys2Proof/Laws/Operands.lean ====
section
/-!
SUPPORT. The resolver (R85 to R96): how its computations chain, what each can fault with, and which parts of
the state they see.
-/

namespace Sys2Proof.Machine

/-! ### Chains of accesses -/

@[simp] theorem ok_bind {α β : Type} (a : α) (f : α → Except FaultKind β) : (Except.ok a >>= f) = f a := rfl

@[simp] theorem error_bind {α β : Type} (e : FaultKind) (f : α → Except FaultKind β) :
    (Except.error e >>= f) = .error e := rfl

theorem except_bind_ok {α β : Type} {x : Except FaultKind α} {f : α → Except FaultKind β} {b : β}
    (h : (x >>= f) = .ok b) : ∃ a, x = .ok a ∧ f a = .ok b := by
  cases x with
  | error e => cases h
  | ok a => exact ⟨a, rfl, h⟩

theorem except_bind_error {α β : Type} {x : Except FaultKind α} {f : α → Except FaultKind β} {e : FaultKind}
    (h : (x >>= f) = .error e) : x = .error e ∨ ∃ a, x = .ok a ∧ f a = .error e := by
  cases x with
  | error e' => cases h; exact .inl rfl
  | ok a => exact .inr ⟨a, rfl, h⟩

@[simp] theorem orFault_ok {α : Type} (s : State) (v : α) (k : α → State) :
    orFault s (.ok v) k = .next (k v) := rfl

@[simp] theorem orFault_error {α : Type} (s : State) (e : FaultKind) (k : α → State) :
    orFault s (.error e) k = .next (s.raise e) := rfl

/-- Everything a meaning over accesses can answer: the continuation's state, or the fault entry (R204). -/
theorem orFault_cases {α : Type} {s t : State} {r : Except FaultKind α} {k : α → State}
    (h : orFault s r k = .next t) :
    (∃ v, r = .ok v ∧ t = k v) ∨ (∃ e, r = .error e ∧ t = s.raise e) := by
  cases r with
  | ok v => cases h; exact .inl ⟨v, rfl, rfl⟩
  | error e => cases h; exact .inr ⟨e, rfl, rfl⟩

/-- Fault entry as the statements say it (R204, R205 b and c). -/
theorem faultsWith_raise (s : State) (k : FaultKind) : FaultsWith k s (.next (s.raise k)) :=
  ⟨_, rfl, rfl, sameMemory_of_eq rfl rfl, rfl⟩

/-! ### What the resolver can fault with -/

theorem memRead_ppuFault {s : State} {a : Word} {k : FaultKind} (h : memRead s a = .error k) : PpuReadFault k :=
  ⟨a, (memRead_error h).2, (memRead_error h).1⟩

theorem readPointer_ppuFault {s : State} {w : Word} {k : FaultKind} (h : readPointer s w = .error k) :
    PpuReadFault k := by
  rcases except_bind_error h with h | ⟨lo, -, h⟩
  · exact memRead_ppuFault h
  · rcases except_bind_error h with h | ⟨hi, -, h⟩
    · exact memRead_ppuFault h
    · cases h

/-- The resolver faults only with UnsupportedRegion, read (R95 d). -/
theorem effAddr_ppuFault {s : State} {m : Mode} {k : FaultKind} (h : effAddr s m = .error k) : PpuReadFault k := by
  cases m <;> first | contradiction | skip
  · exact readPointer_ppuFault h
  · exact readPointer_ppuFault h
  · rcases except_bind_error h with h | ⟨w, -, h⟩
    · exact readPointer_ppuFault h
    · cases h

/-- A source faults only with UnsupportedRegion, read (R112, R120, R154). -/
theorem readSrc_ppuFault {s : State} {src : Src} {k : FaultKind} (h : readSrc s src = .error k) :
    PpuReadFault k := by
  cases src with
  | imm v => cases h
  | mem m =>
    rcases except_bind_error h with h | ⟨ea, -, h⟩
    · exact effAddr_ppuFault h
    · exact memRead_ppuFault h

/-! ### Zero page -/

theorem zext16_toNat (b : Byte) : (zext16 b).toNat = b.toNat := by
  have := b.isLt
  simp only [zext16, BitVec.toNat_setWidth]; omega

theorem join16_toNat (hi lo : Byte) : (join16 hi lo).toNat = 256 * hi.toNat + lo.toNat := by
  have := lo.isLt
  simp only [join16, BitVec.toNat_append]
  rw [Nat.shiftLeft_eq, ← Nat.mul_comm (2 ^ 8), ← Nat.two_pow_add_eq_or_of_lt this]

theorem hi8_toNat (w : Word) : (hi8 w).toNat = w.toNat / 256 := by
  have := w.isLt
  simp only [hi8, BitVec.toNat_setWidth, BitVec.toNat_ushiftRight, Nat.shiftRight_eq_div_pow]; omega

theorem lo8_toNat (w : Word) : (lo8 w).toNat = w.toNat % 256 := by
  simp [lo8]

/-- A word is its two bytes (R39). -/
@[simp] theorem join16_hi8_lo8 (w : Word) : join16 (hi8 w) (lo8 w) = w := by
  apply BitVec.eq_of_toNat_eq
  rw [join16_toNat, hi8_toNat, lo8_toNat]; omega

@[simp] theorem hi8_join16 (hi lo : Byte) : hi8 (join16 hi lo) = hi := by
  have := lo.isLt
  apply BitVec.eq_of_toNat_eq
  rw [hi8_toNat, join16_toNat]; omega

@[simp] theorem lo8_join16 (hi lo : Byte) : lo8 (join16 hi lo) = lo := by
  have := lo.isLt
  apply BitVec.eq_of_toNat_eq
  rw [lo8_toNat, join16_toNat]; omega

/-- The second byte of a pointer, in the same page (R91). -/
theorem samePageNext_toNat (w : Word) :
    (samePageNext w).toNat = 256 * (w.toNat / 256) + (w.toNat + 1) % 256 := by
  rw [samePageNext, join16_toNat, hi8_toNat, BitVec.toNat_add, lo8_toNat]
  simp

/-- The second byte of an indirect pointer as R91 writes it. -/
theorem samePageNext_eq (ptr : Word) : samePageNext ptr =
    if ptr.toNat % 256 = 0xFF then ptr &&& 0xFF00#16 else ptr + 1#16 := by
  have h := ptr.isLt
  apply BitVec.eq_of_toNat_eq
  rw [samePageNext_toNat]
  split
  · have : (ptr &&& 0xFF00#16) = BitVec.ofNat 16 (ptr.toNat / 256 * 256) := by
      have e : (ptr &&& 0xFF00#16) = (ptr >>> 8) <<< 8 := by
        ext i; simp only [BitVec.getElem_and, BitVec.getElem_shiftLeft, BitVec.getElem_ushiftRight]
        have : ∀ j : Fin 16, BitVec.getLsbD 0xFF00#16 j.val = decide (8 ≤ j.val) := by decide +kernel +revert
        rename_i hi
        rw [show (0xFF00#16)[i] = decide (8 ≤ i) from (BitVec.getLsbD_eq_getElem hi).symm.trans (this ⟨i, hi⟩)]
        by_cases g : i < 8
        · simp [g]
        · have g' : 8 ≤ i := by omega
          simp [g, g', Nat.add_sub_cancel' g', BitVec.getLsbD_eq_getElem hi]
      rw [e]; apply BitVec.eq_of_toNat_eq
      simp [BitVec.toNat_shiftLeft, Nat.shiftLeft_eq, Nat.shiftRight_eq_div_pow]
    rw [this, BitVec.toNat_ofNat]; omega
  · rw [BitVec.toNat_add]; simp; omega

/-- A pointer in page 0 is read from RAM and cannot fault (R92, R93). -/
theorem readPointer_zeroPage (s : State) (b : Byte) :
    readPointer s (zext16 b) =
      .ok (join16 (s.ram.get ((b.toNat + 1) % 256)) (s.ram.get b.toNat)) := by
  have hb := b.isLt
  have e0 : (zext16 b).toNat = b.toNat := zext16_toNat b
  have e1 : (samePageNext (zext16 b)).toNat = (b.toNat + 1) % 256 := by rw [samePageNext_toNat, e0]; omega
  unfold readPointer
  rw [memRead_ram (by omega), memRead_ram (by omega), e0, e1]
  have c0 : b.toNat % 0x0800 = b.toNat := by omega
  have c1 : (b.toNat + 1) % 256 % 0x0800 = (b.toNat + 1) % 256 := by omega
  rw [c0, c1]; rfl

/-- Only the Indirect mode can fault in the resolver. -/
theorem effAddr_ok_of_ne_ind (s : State) (m : Mode) (h : m.format ≠ .ind) : ∃ ea, effAddr s m = .ok ea := by
  cases m with
  | ind p => exact absurd rfl h
  | izx zp => exact ⟨_, readPointer_zeroPage s (zp + s.x)⟩
  | izy zp => exact ⟨_, by simp only [effAddr, readPointer_zeroPage]; rfl⟩
  | _ => exact ⟨_, rfl⟩

/-! ### What the resolver sees -/

theorem readPointer_congr {s t : State} (hr : t.ram = s.ram) (ho : t.rom = s.rom) (w : Word) :
    readPointer t w = readPointer s w := by
  simp only [readPointer, memRead_congr hr ho]

/-- The resolver sees X, Y and the two memories (R80 section 2). -/
theorem effAddr_congr {s t : State} (hx : t.x = s.x) (hy : t.y = s.y) (hr : t.ram = s.ram) (ho : t.rom = s.rom)
    (m : Mode) : effAddr t m = effAddr s m := by
  cases m <;> simp only [effAddr, hx, hy, readPointer_congr hr ho]

theorem readSrc_congr {s t : State} (hx : t.x = s.x) (hy : t.y = s.y) (hr : t.ram = s.ram) (ho : t.rom = s.rom)
    (src : Src) : readSrc t src = readSrc s src := by
  cases src with
  | imm v => rfl
  | mem m => simp only [readSrc, readMode, effAddr_congr hx hy hr ho m, memRead_congr hr ho]

/-! ### Stores and read-modify-writes -/

/-- A completed store: the address resolved and the write completed there (R113). -/
theorem writeMode_ok {s t : State} {m : Mode} {v : Byte} (h : writeMode s m v = .ok t) :
    ∃ ea, effAddr s m = .ok ea ∧ memWrite s ea v = .ok t := except_bind_ok h

/-- A completed read-modify-write: one address, read, then written (R130). -/
theorem modifyMode_ok {s t : State} {m : Mode} {f : Byte → Byte} {v : Byte} (h : modifyMode s m f = .ok (v, t)) :
    ∃ ea, effAddr s m = .ok ea ∧ memRead s ea = .ok v ∧ memWrite s ea (f v) = .ok t := by
  obtain ⟨ea, he, h⟩ := except_bind_ok h
  obtain ⟨u, hr, h⟩ := except_bind_ok h
  obtain ⟨s1, hw, h⟩ := except_bind_ok h
  cases h
  exact ⟨ea, he, hr, hw⟩

theorem writeMode_eq {s : State} {m : Mode} {ea : Word} (he : effAddr s m = .ok ea) (v : Byte) :
    writeMode s m v = memWrite s ea v := by
  simp only [writeMode, he]; rfl

theorem modifyMode_eq {s : State} {m : Mode} {ea : Word} {v : Byte} (f : Byte → Byte) (he : effAddr s m = .ok ea)
    (hr : memRead s ea = .ok v) : modifyMode s m f = (memWrite s ea (f v)).map fun t => (v, t) := by
  simp only [modifyMode, he, hr, ok_bind]
  cases memWrite s ea (f v) <;> rfl

theorem modifyMode_ppu {s : State} {m : Mode} {ea : Word} (f : Byte → Byte) (he : effAddr s m = .ok ea)
    (h : InPpu ea) : modifyMode s m f = .error (.unsupportedRegion ea .read) := by
  simp only [modifyMode, he, ok_bind, memRead_ppu h, error_bind]

/-- The faults of a store or read-modify-write: a read or a write in the PPU window, or a write to ROM (R202, R203). -/
def DataFault (k : FaultKind) : Prop :=
  (∃ addr access, InPpu addr ∧ k = .unsupportedRegion addr access) ∨
  (∃ addr v, InRom addr ∧ k = .romWriteViolation addr v)

theorem PpuReadFault.dataFault {k : FaultKind} (h : PpuReadFault k) : DataFault k := by
  obtain ⟨a, ha, rfl⟩ := h; exact .inl ⟨a, _, ha, rfl⟩

theorem memWrite_dataFault {s : State} {a : Word} {v : Byte} {k : FaultKind} (h : memWrite s a v = .error k) :
    DataFault k := by
  rcases memWrite_error h with ⟨rfl, hp⟩ | ⟨rfl, hr⟩
  · exact .inl ⟨a, _, hp, rfl⟩
  · exact .inr ⟨a, v, hr, rfl⟩

theorem writeMode_dataFault {s : State} {m : Mode} {v : Byte} {k : FaultKind} (h : writeMode s m v = .error k) :
    DataFault k := by
  rcases except_bind_error h with h | ⟨ea, -, h⟩
  · exact (effAddr_ppuFault h).dataFault
  · exact memWrite_dataFault h

theorem modifyMode_dataFault {s : State} {m : Mode} {f : Byte → Byte} {k : FaultKind}
    (h : modifyMode s m f = .error k) : DataFault k := by
  rcases except_bind_error h with h | ⟨ea, -, h⟩
  · exact (effAddr_ppuFault h).dataFault
  · rcases except_bind_error h with h | ⟨v, -, h⟩
    · exact (memRead_ppuFault h).dataFault
    · rcases except_bind_error h with h | ⟨t, -, h⟩
      · exact memWrite_dataFault h
      · cases h

end Sys2Proof.Machine
end

