-- ==== Sys2Proof/Laws/Stack.lean ====
section
/-!
SUPPORT. The stack primitives (R42 to R44) in closed form: they cannot fault, since the stack page is RAM.
-/

namespace Sys2Proof.Machine

/-- SP designates an address of page 1, which lies in the RAM window (R42). -/
theorem stackAddr_toNat (sp : Byte) : (stackAddr sp).toNat = 0x0100 + sp.toNat := by
  have := sp.isLt
  simp only [stackAddr, Config.stackBase, zext16, BitVec.toNat_add, BitVec.toNat_setWidth, BitVec.toNat_ofNat]
  omega

theorem stackAddr_ram (sp : Byte) : (stackAddr sp).toNat < 0x2000 := by
  have := sp.isLt
  rw [stackAddr_toNat]; omega

theorem stackAddr_cell (sp : Byte) : (stackAddr sp).toNat % 0x0800 = 0x0100 + sp.toNat := by
  have := sp.isLt
  rw [stackAddr_toNat]; omega

/-- The state after `Push8(v)` (R42). -/
def pushed (s : State) (v : Byte) : State :=
  { s with ram := s.ram.set (0x0100 + s.sp.toNat) v, sp := s.sp - 1#8,
           log := s.log ++ (if s.sp = 0#8 then [.stackWrap .push] else []) }

/-- The state after `Pop8()` (R43). -/
def popped (s : State) : State :=
  { s with sp := s.sp + 1#8, log := s.log ++ (if s.sp = 0xFF#8 then [.stackWrap .pop] else []) }

/-- The byte `Pop8()` returns (R43). -/
def topByte (s : State) : Byte := s.ram.get (0x0100 + (s.sp + 1#8).toNat)

/-! ### What a push and a pop do to each field -/

@[simp] theorem pushed_a (s : State) (v : Byte) : (pushed s v).a = s.a := rfl
@[simp] theorem pushed_x (s : State) (v : Byte) : (pushed s v).x = s.x := rfl
@[simp] theorem pushed_y (s : State) (v : Byte) : (pushed s v).y = s.y := rfl
@[simp] theorem pushed_p (s : State) (v : Byte) : (pushed s v).p = s.p := rfl
@[simp] theorem pushed_pc (s : State) (v : Byte) : (pushed s v).pc = s.pc := rfl
@[simp] theorem pushed_run (s : State) (v : Byte) : (pushed s v).run = s.run := rfl
@[simp] theorem pushed_rom (s : State) (v : Byte) : (pushed s v).rom = s.rom := rfl
@[simp] theorem pushed_sp (s : State) (v : Byte) : (pushed s v).sp = s.sp - 1#8 := rfl
@[simp] theorem pushed_flag (s : State) (v : Byte) (f : Flag) : (pushed s v).flag f = s.flag f := rfl
@[simp] theorem pushed_reg (s : State) (v : Byte) (q : Reg) : (pushed s v).reg q = s.reg q := by cases q <;> rfl
@[simp] theorem pushed_ram (s : State) (v : Byte) :
    (pushed s v).ram = s.ram.set (0x0100 + s.sp.toNat) v := rfl

@[simp] theorem popped_a (s : State) : (popped s).a = s.a := rfl
@[simp] theorem popped_x (s : State) : (popped s).x = s.x := rfl
@[simp] theorem popped_y (s : State) : (popped s).y = s.y := rfl
@[simp] theorem popped_p (s : State) : (popped s).p = s.p := rfl
@[simp] theorem popped_pc (s : State) : (popped s).pc = s.pc := rfl
@[simp] theorem popped_run (s : State) : (popped s).run = s.run := rfl
@[simp] theorem popped_rom (s : State) : (popped s).rom = s.rom := rfl
@[simp] theorem popped_ram (s : State) : (popped s).ram = s.ram := rfl
@[simp] theorem popped_sp (s : State) : (popped s).sp = s.sp + 1#8 := rfl
@[simp] theorem popped_flag (s : State) (f : Flag) : (popped s).flag f = s.flag f := rfl
@[simp] theorem popped_reg (s : State) (q : Reg) : (popped s).reg q = s.reg q := by cases q <;> rfl

/-! ### The primitives -/

@[simp] theorem push8_eq (s : State) (v : Byte) : push8 s v = .ok (pushed s v) := by
  unfold push8
  rw [memWrite_ram (stackAddr_ram s.sp), stackAddr_cell]
  by_cases h : s.sp = 0#8 <;>
    simp [pushed, h, State.diagIf, State.diag, State.setSp, pure, Except.pure, bind, Except.bind]

@[simp] theorem pop8_eq (s : State) : pop8 s = .ok (topByte s, popped s) := by
  have e : (s.diagIf (s.sp == 0xFF#8) .pop).setSp (s.sp + 1#8) = popped s := by
    by_cases h : s.sp = 0xFF#8 <;> simp [popped, h, State.diagIf, State.diag, State.setSp]
  unfold pop8
  simp only [e]
  rw [memRead_ram (stackAddr_ram (popped s).sp), stackAddr_cell]
  rfl

@[simp] theorem push16_eq (s : State) (w : Word) :
    push16 s w = .ok (pushed (pushed s (hi8 w)) (lo8 w)) := by
  simp [push16, bind, Except.bind]

@[simp] theorem pop16_eq (s : State) :
    pop16 s = .ok (join16 (topByte (popped s)) (topByte s), popped (popped s)) := by
  simp [pop16, bind, Except.bind, pure, Except.pure]

/-- Reading after a push: the four addresses of the stack cell give the byte, all else is as before (R33, R42). -/
theorem pushed_read (s : State) (v : Byte) (addr : Word) : memRead (pushed s v) addr =
    if addr.toNat < 0x2000 ∧ addr.toNat % 0x0800 = 0x0100 + s.sp.toNat then .ok v else memRead s addr := by
  have h := memRead_withRam s (stackAddr s.sp) addr v (stackAddr_ram s.sp)
  rw [stackAddr_cell] at h
  have e : memRead (pushed s v) addr = memRead { s with ram := s.ram.set (0x0100 + s.sp.toNat) v } addr :=
    memRead_congr rfl rfl addr
  rw [e]
  split
  · next hh => exact h.1 ⟨hh.1, stackAddr_ram _, by rw [stackAddr_cell]; exact hh.2⟩
  · next hh => exact h.2 fun ⟨a, _, b⟩ => hh ⟨a, by rw [stackAddr_cell] at b; exact b⟩

/-- Reading after two pushes: the later byte lies below the earlier one, with the 8-bit wrap (R42, R44). -/
theorem pushed_pushed_read (s : State) (v w : Byte) (addr : Word) : memRead (pushed (pushed s v) w) addr =
    if addr.toNat < 0x2000 ∧ addr.toNat % 0x0800 = 0x0100 + s.sp.toNat then .ok v
    else if addr.toNat < 0x2000 ∧ addr.toNat % 0x0800 = 0x0100 + (s.sp - 1#8).toNat then .ok w
    else memRead s addr := by
  have ne : ¬ s.sp.toNat = (s.sp - 1#8).toNat := by bv_omega
  rw [pushed_read, pushed_read]
  show (if addr.toNat < 0x2000 ∧ addr.toNat % 0x0800 = 0x0100 + (s.sp - 1#8).toNat then _ else _) = _
  by_cases c1 : addr.toNat < 0x2000 ∧ addr.toNat % 0x0800 = 0x0100 + s.sp.toNat
  · rw [if_neg (by omega), if_pos c1, if_pos c1]
  · rw [if_neg c1, if_neg c1]

theorem sp_sub2 (s : Byte) : s - 1#8 - 1#8 = s - 2#8 := by bv_omega
theorem sp_add2 (s : Byte) : s + 1#8 + 1#8 = s + 2#8 := by bv_omega

/-- Two pushes log one wrap exactly when SP was 0 or 1 (R42, R44). -/
theorem push2_log (s : State) (v w : Byte) :
    (pushed (pushed s v) w).log = s.log ++ (if s.sp.toNat ≤ 1 then [.stackWrap .push] else []) := by
  have h := s.sp.isLt
  simp only [pushed, List.append_assoc]
  by_cases h0 : s.sp = 0#8
  · have : s.sp.toNat = 0 := by simp [h0]
    simp [h0]
  · have n0 : s.sp.toNat ≠ 0 := fun e => h0 (BitVec.eq_of_toNat_eq e)
    by_cases h1 : s.sp = 1#8
    · simp [h1]
    · have n1 : s.sp.toNat ≠ 1 := fun e => h1 (BitVec.eq_of_toNat_eq e)
      have : ¬ s.sp - 1#8 = 0#8 := by bv_omega
      have : ¬ s.sp.toNat ≤ 1 := by omega
      simp [*]

/-- Two pops log one wrap exactly when SP was 254 or 255 (R43, R44). -/
theorem pop2_log (s : State) :
    (popped (popped s)).log = s.log ++ (if 254 ≤ s.sp.toNat then [.stackWrap .pop] else []) := by
  have h := s.sp.isLt
  simp only [popped, List.append_assoc]
  by_cases h0 : s.sp = 255#8
  · simp [h0]
  · have n0 : s.sp.toNat ≠ 255 := fun e => h0 (BitVec.eq_of_toNat_eq e)
    by_cases h1 : s.sp = 254#8
    · simp [h1]
    · have n1 : s.sp.toNat ≠ 254 := fun e => h1 (BitVec.eq_of_toNat_eq e)
      have : ¬ s.sp + 1#8 = 255#8 := by bv_omega
      have : ¬ 254 ≤ s.sp.toNat := by omega
      simp [*]

/-- Three pops log one wrap exactly when SP was 253 or more (R43, R184). -/
theorem pop3_log (s : State) :
    (popped (popped (popped s))).log = s.log ++ (if 253 ≤ s.sp.toNat then [.stackWrap .pop] else []) := by
  have h := s.sp.isLt
  rw [show (popped (popped (popped s))).log = (popped (popped s)).log ++
    (if (popped (popped s)).sp = 0xFF#8 then [.stackWrap .pop] else []) from rfl, pop2_log]
  simp only [popped, List.append_assoc]
  by_cases h0 : s.sp = 253#8
  · simp [h0]
  · have n0 : s.sp.toNat ≠ 253 := fun e => h0 (BitVec.eq_of_toNat_eq e)
    have : ¬ s.sp + 1#8 + 1#8 = 255#8 := by bv_omega
    by_cases h2 : 254 ≤ s.sp.toNat
    · have : 253 ≤ s.sp.toNat := by omega
      simp [*]
    · have : ¬ 253 ≤ s.sp.toNat := by omega
      simp [*]

theorem pushed_wf {s : State} (v : Byte) (h : s.MemoriesWf) : (pushed s v).MemoriesWf :=
  ⟨Memory.set_wf h.1 (by have := s.sp.isLt; unfold Config.ramSize; omega) v, h.2⟩

theorem popped_wf {s : State} (h : s.MemoriesWf) : (popped s).MemoriesWf := h

theorem pushed_log (s : State) (v : Byte) : s.log <+: (pushed s v).log := List.prefix_append _ _

theorem popped_log (s : State) : s.log <+: (popped s).log := List.prefix_append _ _

end Sys2Proof.Machine
end

