-- ==== Sys2Proof/Laws/Exec.lean ====
section
/-!
SUPPORT. The meanings by mnemonic: `exec` is one of 56 shared meanings on the instruction's operand, whatever
its format, and what each shared meaning can answer. Proofs over all instructions split on the mnemonic.
-/

namespace Sys2Proof.Machine

/-- Give the source an operand is; an operand that is none leaves the state (no instruction has such a pair). -/
def onSrc (o : Operand) (s : State) (k : Src → Result) : Result :=
  match o with
  | .immediate v => k (.imm v)
  | .memory m => k (.mem m)
  | _ => .next s

/-- Give the memory mode an operand is. -/
def onMode (o : Operand) (s : State) (k : Mode → Result) : Result :=
  match o with
  | .memory m => k m
  | _ => .next s

/-- The meaning of a shift on A or on a memory mode (R130). -/
def onShift (o : Operand) (s : State) (k : ShiftKind) : Result :=
  match o with
  | .accumulator => shiftA k s
  | .memory m => shiftMem k m s
  | _ => .next s

/-- The meaning of a branch on its offset (R160). -/
def onBranch (o : Operand) (s : State) (cond : Bool) : Result :=
  match o with
  | .relative off => branch cond off s
  | _ => .next s

/-- JSR on its target (R170). -/
def onCall (o : Operand) (s : State) : Result :=
  match o with
  | .memory (.abs target) => callSub target s
  | _ => .next s

/-- The meaning of each mnemonic on an operand. -/
def meaning (m : Mnemonic) (o : Operand) (s : State) : Result :=
  match m with
  | .LDA => onSrc o s fun src => load .A src s
  | .LDX => onSrc o s fun src => load .X src s
  | .LDY => onSrc o s fun src => load .Y src s
  | .STA => onMode o s fun m => store .A m s
  | .STX => onMode o s fun m => store .X m s
  | .STY => onMode o s fun m => store .Y m s
  | .TAX => transfer s.a .X s
  | .TAY => transfer s.a .Y s
  | .TXA => transfer s.x .A s
  | .TYA => transfer s.y .A s
  | .TSX => transfer s.sp .X s
  | .TXS => .next (s.setSp s.x)
  | .ADC => onSrc o s fun src => adc src s
  | .SBC => onSrc o s fun src => sbc src s
  | .AND => onSrc o s fun src => logical (· &&& ·) src s
  | .ORA => onSrc o s fun src => logical (· ||| ·) src s
  | .EOR => onSrc o s fun src => logical (· ^^^ ·) src s
  | .ASL => onShift o s .asl
  | .LSR => onShift o s .lsr
  | .ROL => onShift o s .rol
  | .ROR => onShift o s .ror
  | .INC => onMode o s fun m => stepMem (· + 1#8) m s
  | .DEC => onMode o s fun m => stepMem (· - 1#8) m s
  | .INX => stepReg .X (s.x + 1#8) s
  | .INY => stepReg .Y (s.y + 1#8) s
  | .DEX => stepReg .X (s.x - 1#8) s
  | .DEY => stepReg .Y (s.y - 1#8) s
  | .CMP => onSrc o s fun src => compare .A src s
  | .CPX => onSrc o s fun src => compare .X src s
  | .CPY => onSrc o s fun src => compare .Y src s
  | .BIT => onMode o s fun m => bitTest m s
  | .BCC => onBranch o s (!s.flag .C)
  | .BCS => onBranch o s (s.flag .C)
  | .BEQ => onBranch o s (s.flag .Z)
  | .BNE => onBranch o s (!s.flag .Z)
  | .BMI => onBranch o s (s.flag .N)
  | .BPL => onBranch o s (!s.flag .N)
  | .BVC => onBranch o s (!s.flag .V)
  | .BVS => onBranch o s (s.flag .V)
  | .JMP => onMode o s fun m => jump m s
  | .JSR => onCall o s
  | .RTS => returnSub s
  | .PHA => push s.a s
  | .PLA => pullA s
  | .PHP => push (pushedStatus s.p) s
  | .PLP => pullP s
  | .RTI => returnInterrupt s
  | .CLC => .next (s.setFlag .C false)
  | .SEC => .next (s.setFlag .C true)
  | .CLD => .next (s.setFlag .D false)
  | .SED => .next (s.setFlag .D true)
  | .CLI => .next (s.setFlag .I false)
  | .SEI => .next (s.setFlag .I true)
  | .CLV => .next (s.setFlag .V false)
  | .NOP => .next s
  | .BRK => .next s.halt

/-- Every instruction means what its mnemonic means on its operand: all formats of a mnemonic share one meaning. -/
theorem exec_eq_meaning (i : Instr) (s : State) : exec i s = meaning i.mnemonic i.operand s := by
  cases i <;> rfl

/-! ### Everything each shared meaning can answer -/

theorem load_cases {r : Reg} {src : Src} {s t : State} (h : load r src s = .next t) :
    (∃ m, readSrc s src = .ok m ∧ t = ((s.setReg r m).setZN m).advance src.operandLength) ∨
    (∃ k, readSrc s src = .error k ∧ t = s.raise k) := orFault_cases h

theorem store_cases {r : Reg} {m : Mode} {s t : State} (h : store r m s = .next t) :
    (∃ u, writeMode s m (s.reg r) = .ok u ∧ t = u.advance m.operandLength) ∨
    (∃ k, writeMode s m (s.reg r) = .error k ∧ t = s.raise k) := orFault_cases h

theorem withSrc_cases {src : Src} {s t : State} {f : Byte → State} (h : withSrc src s f = .next t) :
    (∃ m, readSrc s src = .ok m ∧ t = (f m).advance src.operandLength) ∨
    (∃ k, readSrc s src = .error k ∧ t = s.raise k) := orFault_cases h

theorem compare_cases {r : Reg} {src : Src} {s t : State} (h : compare r src s = .next t) :
    (∃ m, readSrc s src = .ok m ∧ t = (s.compareFlags (s.reg r) m).advance src.operandLength) ∨
    (∃ k, readSrc s src = .error k ∧ t = s.raise k) := orFault_cases h

theorem bitTest_cases {m : Mode} {s t : State} (h : bitTest m s = .next t) :
    (∃ v, readMode s m = .ok v ∧ t = (s.bitFlags v).advance m.operandLength) ∨
    (∃ k, readMode s m = .error k ∧ t = s.raise k) := orFault_cases h

theorem jump_cases {m : Mode} {s t : State} (h : jump m s = .next t) :
    (∃ target, effAddr s m = .ok target ∧ t = s.setPc target) ∨
    (∃ k, effAddr s m = .error k ∧ t = s.raise k) := orFault_cases h

theorem shiftMem_cases {k : ShiftKind} {m : Mode} {s t : State} (h : shiftMem k m s = .next t) :
    (∃ v u, modifyMode s m (fun v => k.result v (s.flag .C)) = .ok (v, u) ∧
      t = (u.shiftFlags k v (k.result v (s.flag .C))).advance m.operandLength) ∨
    (∃ e, modifyMode s m (fun v => k.result v (s.flag .C)) = .error e ∧ t = s.raise e) := by
  rcases orFault_cases h with ⟨⟨v, u⟩, hm, rfl⟩ | h
  · exact .inl ⟨v, u, hm, rfl⟩
  · exact .inr h

theorem stepMem_cases {f : Byte → Byte} {m : Mode} {s t : State} (h : stepMem f m s = .next t) :
    (∃ v u, modifyMode s m f = .ok (v, u) ∧ t = (u.setZN (f v)).advance m.operandLength) ∨
    (∃ e, modifyMode s m f = .error e ∧ t = s.raise e) := by
  rcases orFault_cases h with ⟨⟨v, u⟩, hm, rfl⟩ | h
  · exact .inl ⟨v, u, hm, rfl⟩
  · exact .inr h

/-! ### The stack meanings in closed form: they cannot fault -/

@[simp] theorem push_eq (v : Byte) (s : State) : push v s = .next (pushed s v) := by simp [push]

@[simp] theorem pullA_eq (s : State) :
    pullA s = .next (((popped s).setReg .A (topByte s)).setZN (topByte s)) := by simp [pullA]

@[simp] theorem pullP_eq (s : State) : pullP s = .next ((popped s).setP (pulledStatus (topByte s))) := by
  simp [pullP]

@[simp] theorem returnSub_eq (s : State) :
    returnSub s = .next ((popped (popped s)).setPc (join16 (topByte (popped s)) (topByte s) + 1#16)) := by
  simp [returnSub]

@[simp] theorem callSub_eq (target : Word) (s : State) :
    callSub target s =
      .next ((pushed (pushed s (hi8 (s.pc + 1#16))) (lo8 (s.pc + 1#16))).setPc target) := by
  simp [callSub]

@[simp] theorem returnInterrupt_eq (s : State) :
    returnInterrupt s = .next (((popped (popped (popped s))).setP (pulledStatus (topByte s))).setPc
      (join16 (topByte (popped (popped s))) (topByte (popped s)))) := by
  simp [returnInterrupt, popFrame, bind, Except.bind, pure, Except.pure]

/-! ### No instruction stops the machine -/

theorem orFault_next {α : Type} (s : State) (r : Except FaultKind α) (k : α → State) :
    ∃ t, orFault s r k = .next t := by
  cases r with
  | ok v => exact ⟨_, rfl⟩
  | error e => exact ⟨_, rfl⟩

/-- Every instruction answers a next state in every state: none ends in a fault outcome or a refusal. -/
theorem exec_next (i : Instr) (s : State) : ∃ t, exec i s = .next t := by
  cases i <;> first | exact ⟨_, rfl⟩ | exact orFault_next _ _ _

end Sys2Proof.Machine
end

