-- ==== Sys2Proof/Laws/Effect.lean ====
section
/-!
SUPPORT. Everything an instruction can do, said once by mnemonic: either it faults and leaves the state it began in,
Faulted, or it completes with the effect of its rule. Proofs over all instructions cite `exec_effect`.
-/

namespace Sys2Proof.Machine

/-- A completed instruction that reads a source byte and continues with `f` of it. -/
def SrcEffect (i : Instr) (f : Byte → State) (s t : State) : Prop :=
  ∃ src v, i.operand = src.operand ∧ readSrc s src = .ok v ∧ t = (f v).advance i.format.operandLength

/-- A completed store of `v`. -/
def StoreEffect (i : Instr) (v : Byte) (s t : State) : Prop :=
  ∃ m ea u, i.operand = .memory m ∧ effAddr s m = .ok ea ∧ memWrite s ea v = .ok u ∧
    t = u.advance i.format.operandLength

/-- A completed read-modify-write by `f`, with the flags `g` makes of the byte read and the state after the write. -/
def ModifyEffect (i : Instr) (f : Byte → Byte) (g : Byte → State → State) (s t : State) : Prop :=
  ∃ m ea v u, i.operand = .memory m ∧ effAddr s m = .ok ea ∧ memRead s ea = .ok v ∧ memWrite s ea (f v) = .ok u ∧
    t = (g v u).advance i.format.operandLength

/-- A completed shift: of A, or of memory. -/
def ShiftEffect (i : Instr) (k : ShiftKind) (s t : State) : Prop :=
  (i.operand = .accumulator ∧
    t = (s.setReg .A (k.result s.a (s.flag .C))).shiftFlags k s.a (k.result s.a (s.flag .C))) ∨
  ModifyEffect i (fun v => k.result v (s.flag .C)) (fun v u => u.shiftFlags k v (k.result v (s.flag .C))) s t

/-- A branch: past the offset byte, or to the target. -/
def BranchEffect (i : Instr) (cond : Bool) (s t : State) : Prop :=
  ∃ off, i.operand = .relative off ∧ t = s.setPc (if cond then branchTarget (s.pc + 1#16) off else s.pc + 1#16)

/-- The effect of a completed instruction. -/
def Effect (i : Instr) (s t : State) : Prop :=
  match i.mnemonic with
  | .LDA => SrcEffect i (fun v => (s.setReg .A v).setZN v) s t
  | .LDX => SrcEffect i (fun v => (s.setReg .X v).setZN v) s t
  | .LDY => SrcEffect i (fun v => (s.setReg .Y v).setZN v) s t
  | .STA => StoreEffect i s.a s t
  | .STX => StoreEffect i s.x s t
  | .STY => StoreEffect i s.y s t
  | .TAX => t = (s.setReg .X s.a).setZN s.a
  | .TAY => t = (s.setReg .Y s.a).setZN s.a
  | .TXA => t = (s.setReg .A s.x).setZN s.x
  | .TYA => t = (s.setReg .A s.y).setZN s.y
  | .TSX => t = (s.setReg .X s.sp).setZN s.sp
  | .TXS => t = s.setSp s.x
  | .ADC => SrcEffect i (fun v => s.addToA v) s t
  | .SBC => SrcEffect i (fun v => s.addToA (sbcAddend v)) s t
  | .AND => SrcEffect i (fun v => (s.setReg .A (s.a &&& v)).setZN (s.a &&& v)) s t
  | .ORA => SrcEffect i (fun v => (s.setReg .A (s.a ||| v)).setZN (s.a ||| v)) s t
  | .EOR => SrcEffect i (fun v => (s.setReg .A (s.a ^^^ v)).setZN (s.a ^^^ v)) s t
  | .ASL => ShiftEffect i .asl s t
  | .LSR => ShiftEffect i .lsr s t
  | .ROL => ShiftEffect i .rol s t
  | .ROR => ShiftEffect i .ror s t
  | .INC => ModifyEffect i (· + 1#8) (fun v u => u.setZN (v + 1#8)) s t
  | .DEC => ModifyEffect i (· - 1#8) (fun v u => u.setZN (v - 1#8)) s t
  | .INX => t = (s.setReg .X (s.x + 1#8)).setZN (s.x + 1#8)
  | .INY => t = (s.setReg .Y (s.y + 1#8)).setZN (s.y + 1#8)
  | .DEX => t = (s.setReg .X (s.x - 1#8)).setZN (s.x - 1#8)
  | .DEY => t = (s.setReg .Y (s.y - 1#8)).setZN (s.y - 1#8)
  | .CMP => SrcEffect i (fun v => s.compareFlags s.a v) s t
  | .CPX => SrcEffect i (fun v => s.compareFlags s.x v) s t
  | .CPY => SrcEffect i (fun v => s.compareFlags s.y v) s t
  | .BIT => SrcEffect i (fun v => s.bitFlags v) s t
  | .BCC => BranchEffect i (!s.flag .C) s t
  | .BCS => BranchEffect i (s.flag .C) s t
  | .BEQ => BranchEffect i (s.flag .Z) s t
  | .BNE => BranchEffect i (!s.flag .Z) s t
  | .BMI => BranchEffect i (s.flag .N) s t
  | .BPL => BranchEffect i (!s.flag .N) s t
  | .BVC => BranchEffect i (!s.flag .V) s t
  | .BVS => BranchEffect i (s.flag .V) s t
  | .JMP => ∃ m target, i.operand = .memory m ∧ effAddr s m = .ok target ∧ t = s.setPc target
  | .JSR => ∃ target, i.operand = .memory (.abs target) ∧
      t = (pushed (pushed s (hi8 (s.pc + 1#16))) (lo8 (s.pc + 1#16))).setPc target
  | .RTS => t = (popped (popped s)).setPc (join16 (topByte (popped s)) (topByte s) + 1#16)
  | .PHA => t = pushed s s.a
  | .PLA => t = ((popped s).setReg .A (topByte s)).setZN (topByte s)
  | .PHP => t = pushed s (pushedStatus s.p)
  | .PLP => t = (popped s).setP (pulledStatus (topByte s))
  | .RTI => t = ((popped (popped (popped s))).setP (pulledStatus (topByte s))).setPc
      (join16 (topByte (popped (popped s))) (topByte (popped s)))
  | .CLC => t = s.setFlag .C false
  | .SEC => t = s.setFlag .C true
  | .CLD => t = s.setFlag .D false
  | .SED => t = s.setFlag .D true
  | .CLI => t = s.setFlag .I false
  | .SEI => t = s.setFlag .I true
  | .CLV => t = s.setFlag .V false
  | .NOP => t = s
  | .BRK => t = s.halt

/-- A fault entry of an instruction: the state it began in, Faulted by one of its data accesses (R204, R205). -/
def FaultEffect (s t : State) : Prop := ∃ k, t = s.raise k ∧ DataFault k

theorem srcEffect_of {i : Instr} {src : Src} {s t : State} {f : Byte → State} (ho : i.operand = src.operand)
    (h : withSrc src s f = .next t) : FaultEffect s t ∨ SrcEffect i f s t := by
  have hn : i.format.operandLength = src.operandLength := by rw [Instr.format, ho]; rfl
  rcases withSrc_cases h with ⟨m, hr, rfl⟩ | ⟨k, hr, rfl⟩
  · exact .inr ⟨src, m, ho, hr, by rw [hn]⟩
  · exact .inl ⟨k, rfl, (readSrc_ppuFault hr).dataFault⟩

theorem storeEffect_of {i : Instr} {m : Mode} {s t : State} {r : Reg} (ho : i.operand = .memory m)
    (h : store r m s = .next t) : FaultEffect s t ∨ StoreEffect i (s.reg r) s t := by
  have hn : i.format.operandLength = m.operandLength := by rw [Instr.format, ho]; rfl
  rcases store_cases h with ⟨u, hw, rfl⟩ | ⟨k, hw, rfl⟩
  · obtain ⟨ea, he, hw⟩ := writeMode_ok hw
    exact .inr ⟨m, ea, u, ho, he, hw, by rw [hn]⟩
  · exact .inl ⟨k, rfl, writeMode_dataFault hw⟩

theorem shiftMemEffect_of {i : Instr} {m : Mode} {k : ShiftKind} {s t : State} (ho : i.operand = .memory m)
    (h : shiftMem k m s = .next t) : FaultEffect s t ∨ ShiftEffect i k s t := by
  have hn : i.format.operandLength = m.operandLength := by rw [Instr.format, ho]; rfl
  rcases shiftMem_cases h with ⟨v, u, hw, rfl⟩ | ⟨e, hw, rfl⟩
  · obtain ⟨ea, he, hr, hw⟩ := modifyMode_ok hw
    exact .inr (.inr ⟨m, ea, v, u, ho, he, hr, hw, by rw [hn]⟩)
  · exact .inl ⟨e, rfl, modifyMode_dataFault hw⟩

theorem stepMemEffect_of {i : Instr} {m : Mode} {f : Byte → Byte} {s t : State} (ho : i.operand = .memory m)
    (h : stepMem f m s = .next t) : FaultEffect s t ∨ ModifyEffect i f (fun v u => u.setZN (f v)) s t := by
  have hn : i.format.operandLength = m.operandLength := by rw [Instr.format, ho]; rfl
  rcases stepMem_cases h with ⟨v, u, hw, rfl⟩ | ⟨e, hw, rfl⟩
  · obtain ⟨ea, he, hr, hw⟩ := modifyMode_ok hw
    exact .inr ⟨m, ea, v, u, ho, he, hr, hw, by rw [hn]⟩
  · exact .inl ⟨e, rfl, modifyMode_dataFault hw⟩

theorem jumpEffect_of {i : Instr} {m : Mode} {s t : State} (ho : i.operand = .memory m) (h : jump m s = .next t) :
    FaultEffect s t ∨ ∃ m target, i.operand = .memory m ∧ effAddr s m = .ok target ∧ t = s.setPc target := by
  rcases jump_cases h with ⟨target, he, rfl⟩ | ⟨k, he, rfl⟩
  · exact .inr ⟨m, target, ho, he, rfl⟩
  · exact .inl ⟨k, rfl, (effAddr_ppuFault he).dataFault⟩

theorem branchEffect_of {i : Instr} {off : Byte} {cond : Bool} {s t : State} (ho : i.operand = .relative off)
    (h : branch cond off s = .next t) : BranchEffect i cond s t := by
  cases cond <;> cases h <;> exact ⟨off, ho, rfl⟩

/-- Everything an instruction can do. -/
theorem exec_effect {i : Instr} {s t : State} (h : exec i s = .next t) : FaultEffect s t ∨ Effect i s t := by
  cases i
  case ldaImm | ldxImm | ldyImm | adcImm | sbcImm | andImm | oraImm | eorImm | cmpImm | cpxImm | cpyImm =>
    exact srcEffect_of (src := .imm _) rfl h
  case ldaZp | ldaZpx | ldaAbs | ldaAbx | ldaAby | ldaIzx | ldaIzy | ldxZp | ldxZpy | ldxAbs | ldxAby | ldyZp |
    ldyZpx | ldyAbs | ldyAbx | adcZp | adcZpx | adcAbs | adcAbx | adcAby | adcIzx | adcIzy | sbcZp | sbcZpx |
    sbcAbs | sbcAbx | sbcAby | sbcIzx | sbcIzy | andZp | andZpx | andAbs | andAbx | andAby | andIzx | andIzy |
    oraZp | oraZpx | oraAbs | oraAbx | oraAby | oraIzx | oraIzy | eorZp | eorZpx | eorAbs | eorAbx | eorAby |
    eorIzx | eorIzy | cmpZp | cmpZpx | cmpAbs | cmpAbx | cmpAby | cmpIzx | cmpIzy | cpxZp | cpxAbs | cpyZp |
    cpyAbs | bitZp | bitAbs =>
    exact srcEffect_of (src := .mem _) rfl h
  case staZp | staZpx | staAbs | staAbx | staAby | staIzx | staIzy =>
    exact storeEffect_of (r := .A) rfl h
  case stxZp | stxZpy | stxAbs =>
    exact storeEffect_of (r := .X) rfl h
  case styZp | styZpx | styAbs =>
    exact storeEffect_of (r := .Y) rfl h
  case tax | tay | txa | tya | tsx | txs | inx | iny | dex | dey | clc | sec | cld | sed | cli | sei | clv | nop |
    brk =>
    cases h; exact .inr rfl
  case aslAcc | lsrAcc | rolAcc | rorAcc =>
    cases h; exact .inr (.inl ⟨rfl, rfl⟩)
  case aslZp | aslZpx | aslAbs | aslAbx | lsrZp | lsrZpx | lsrAbs | lsrAbx | rolZp | rolZpx | rolAbs | rolAbx |
    rorZp | rorZpx | rorAbs | rorAbx =>
    exact shiftMemEffect_of rfl h
  case incZp | incZpx | incAbs | incAbx | decZp | decZpx | decAbs | decAbx =>
    exact stepMemEffect_of rfl h
  case bcc | bcs | beq | bne | bmi | bpl | bvc | bvs =>
    exact .inr (branchEffect_of rfl h)
  case jmpAbs | jmpInd =>
    exact jumpEffect_of rfl h
  case jsr =>
    exact .inr ⟨_, rfl, (Host.Outcome.next.inj ((callSub_eq _ s).symm.trans h)).symm⟩
  case rts =>
    exact .inr (Host.Outcome.next.inj ((returnSub_eq s).symm.trans h)).symm
  case pha | php =>
    exact .inr (Host.Outcome.next.inj ((push_eq _ s).symm.trans h)).symm
  case pla =>
    exact .inr (Host.Outcome.next.inj ((pullA_eq s).symm.trans h)).symm
  case plp =>
    exact .inr (Host.Outcome.next.inj ((pullP_eq s).symm.trans h)).symm
  case rti =>
    exact .inr (Host.Outcome.next.inj ((returnInterrupt_eq s).symm.trans h)).symm

end Sys2Proof.Machine
end

