-- ==== Sys2Proof/Laws/PerInstr.lean ====
section
/-!
SUPPORT. Laws of every instruction as syntax, one lemma for each constructor. `EncodedOpcode`: the encoding of the
instruction is its opcode byte and its operand bytes, that byte decodes to its mnemonic and format, and those
assemble to the instruction again (30_encoding.md R60 to R64). The bytes below are those of the table of R64.
-/

namespace Sys2Proof.Laws.EncodedOpcode

/-- The encoding begins with a byte that decodes to the instruction's mnemonic and format. -/
def Statement (i : Instr) : Prop :=
  ∃ b, encode i = b :: i.operand.bytes ∧ decodeByte b = some (i.mnemonic, i.format) ∧
    assemble i.mnemonic i.operand = some i

theorem ldaImm (v : Byte) : Statement (.ldaImm v) := ⟨0xA9, rfl, rfl, rfl⟩
theorem ldaZp (zp : Byte) : Statement (.ldaZp zp) := ⟨0xA5, rfl, rfl, rfl⟩
theorem ldaZpx (zp : Byte) : Statement (.ldaZpx zp) := ⟨0xB5, rfl, rfl, rfl⟩
theorem ldaAbs (addr : Word) : Statement (.ldaAbs addr) := ⟨0xAD, rfl, rfl, rfl⟩
theorem ldaAbx (addr : Word) : Statement (.ldaAbx addr) := ⟨0xBD, rfl, rfl, rfl⟩
theorem ldaAby (addr : Word) : Statement (.ldaAby addr) := ⟨0xB9, rfl, rfl, rfl⟩
theorem ldaIzx (zp : Byte) : Statement (.ldaIzx zp) := ⟨0xA1, rfl, rfl, rfl⟩
theorem ldaIzy (zp : Byte) : Statement (.ldaIzy zp) := ⟨0xB1, rfl, rfl, rfl⟩
theorem ldxImm (v : Byte) : Statement (.ldxImm v) := ⟨0xA2, rfl, rfl, rfl⟩
theorem ldxZp (zp : Byte) : Statement (.ldxZp zp) := ⟨0xA6, rfl, rfl, rfl⟩
theorem ldxZpy (zp : Byte) : Statement (.ldxZpy zp) := ⟨0xB6, rfl, rfl, rfl⟩
theorem ldxAbs (addr : Word) : Statement (.ldxAbs addr) := ⟨0xAE, rfl, rfl, rfl⟩
theorem ldxAby (addr : Word) : Statement (.ldxAby addr) := ⟨0xBE, rfl, rfl, rfl⟩
theorem ldyImm (v : Byte) : Statement (.ldyImm v) := ⟨0xA0, rfl, rfl, rfl⟩
theorem ldyZp (zp : Byte) : Statement (.ldyZp zp) := ⟨0xA4, rfl, rfl, rfl⟩
theorem ldyZpx (zp : Byte) : Statement (.ldyZpx zp) := ⟨0xB4, rfl, rfl, rfl⟩
theorem ldyAbs (addr : Word) : Statement (.ldyAbs addr) := ⟨0xAC, rfl, rfl, rfl⟩
theorem ldyAbx (addr : Word) : Statement (.ldyAbx addr) := ⟨0xBC, rfl, rfl, rfl⟩
theorem staZp (zp : Byte) : Statement (.staZp zp) := ⟨0x85, rfl, rfl, rfl⟩
theorem staZpx (zp : Byte) : Statement (.staZpx zp) := ⟨0x95, rfl, rfl, rfl⟩
theorem staAbs (addr : Word) : Statement (.staAbs addr) := ⟨0x8D, rfl, rfl, rfl⟩
theorem staAbx (addr : Word) : Statement (.staAbx addr) := ⟨0x9D, rfl, rfl, rfl⟩
theorem staAby (addr : Word) : Statement (.staAby addr) := ⟨0x99, rfl, rfl, rfl⟩
theorem staIzx (zp : Byte) : Statement (.staIzx zp) := ⟨0x81, rfl, rfl, rfl⟩
theorem staIzy (zp : Byte) : Statement (.staIzy zp) := ⟨0x91, rfl, rfl, rfl⟩
theorem stxZp (zp : Byte) : Statement (.stxZp zp) := ⟨0x86, rfl, rfl, rfl⟩
theorem stxZpy (zp : Byte) : Statement (.stxZpy zp) := ⟨0x96, rfl, rfl, rfl⟩
theorem stxAbs (addr : Word) : Statement (.stxAbs addr) := ⟨0x8E, rfl, rfl, rfl⟩
theorem styZp (zp : Byte) : Statement (.styZp zp) := ⟨0x84, rfl, rfl, rfl⟩
theorem styZpx (zp : Byte) : Statement (.styZpx zp) := ⟨0x94, rfl, rfl, rfl⟩
theorem styAbs (addr : Word) : Statement (.styAbs addr) := ⟨0x8C, rfl, rfl, rfl⟩
theorem tax : Statement .tax := ⟨0xAA, rfl, rfl, rfl⟩
theorem tay : Statement .tay := ⟨0xA8, rfl, rfl, rfl⟩
theorem txa : Statement .txa := ⟨0x8A, rfl, rfl, rfl⟩
theorem tya : Statement .tya := ⟨0x98, rfl, rfl, rfl⟩
theorem tsx : Statement .tsx := ⟨0xBA, rfl, rfl, rfl⟩
theorem txs : Statement .txs := ⟨0x9A, rfl, rfl, rfl⟩
theorem adcImm (v : Byte) : Statement (.adcImm v) := ⟨0x69, rfl, rfl, rfl⟩
theorem adcZp (zp : Byte) : Statement (.adcZp zp) := ⟨0x65, rfl, rfl, rfl⟩
theorem adcZpx (zp : Byte) : Statement (.adcZpx zp) := ⟨0x75, rfl, rfl, rfl⟩
theorem adcAbs (addr : Word) : Statement (.adcAbs addr) := ⟨0x6D, rfl, rfl, rfl⟩
theorem adcAbx (addr : Word) : Statement (.adcAbx addr) := ⟨0x7D, rfl, rfl, rfl⟩
theorem adcAby (addr : Word) : Statement (.adcAby addr) := ⟨0x79, rfl, rfl, rfl⟩
theorem adcIzx (zp : Byte) : Statement (.adcIzx zp) := ⟨0x61, rfl, rfl, rfl⟩
theorem adcIzy (zp : Byte) : Statement (.adcIzy zp) := ⟨0x71, rfl, rfl, rfl⟩
theorem sbcImm (v : Byte) : Statement (.sbcImm v) := ⟨0xE9, rfl, rfl, rfl⟩
theorem sbcZp (zp : Byte) : Statement (.sbcZp zp) := ⟨0xE5, rfl, rfl, rfl⟩
theorem sbcZpx (zp : Byte) : Statement (.sbcZpx zp) := ⟨0xF5, rfl, rfl, rfl⟩
theorem sbcAbs (addr : Word) : Statement (.sbcAbs addr) := ⟨0xED, rfl, rfl, rfl⟩
theorem sbcAbx (addr : Word) : Statement (.sbcAbx addr) := ⟨0xFD, rfl, rfl, rfl⟩
theorem sbcAby (addr : Word) : Statement (.sbcAby addr) := ⟨0xF9, rfl, rfl, rfl⟩
theorem sbcIzx (zp : Byte) : Statement (.sbcIzx zp) := ⟨0xE1, rfl, rfl, rfl⟩
theorem sbcIzy (zp : Byte) : Statement (.sbcIzy zp) := ⟨0xF1, rfl, rfl, rfl⟩
theorem andImm (v : Byte) : Statement (.andImm v) := ⟨0x29, rfl, rfl, rfl⟩
theorem andZp (zp : Byte) : Statement (.andZp zp) := ⟨0x25, rfl, rfl, rfl⟩
theorem andZpx (zp : Byte) : Statement (.andZpx zp) := ⟨0x35, rfl, rfl, rfl⟩
theorem andAbs (addr : Word) : Statement (.andAbs addr) := ⟨0x2D, rfl, rfl, rfl⟩
theorem andAbx (addr : Word) : Statement (.andAbx addr) := ⟨0x3D, rfl, rfl, rfl⟩
theorem andAby (addr : Word) : Statement (.andAby addr) := ⟨0x39, rfl, rfl, rfl⟩
theorem andIzx (zp : Byte) : Statement (.andIzx zp) := ⟨0x21, rfl, rfl, rfl⟩
theorem andIzy (zp : Byte) : Statement (.andIzy zp) := ⟨0x31, rfl, rfl, rfl⟩
theorem oraImm (v : Byte) : Statement (.oraImm v) := ⟨0x09, rfl, rfl, rfl⟩
theorem oraZp (zp : Byte) : Statement (.oraZp zp) := ⟨0x05, rfl, rfl, rfl⟩
theorem oraZpx (zp : Byte) : Statement (.oraZpx zp) := ⟨0x15, rfl, rfl, rfl⟩
theorem oraAbs (addr : Word) : Statement (.oraAbs addr) := ⟨0x0D, rfl, rfl, rfl⟩
theorem oraAbx (addr : Word) : Statement (.oraAbx addr) := ⟨0x1D, rfl, rfl, rfl⟩
theorem oraAby (addr : Word) : Statement (.oraAby addr) := ⟨0x19, rfl, rfl, rfl⟩
theorem oraIzx (zp : Byte) : Statement (.oraIzx zp) := ⟨0x01, rfl, rfl, rfl⟩
theorem oraIzy (zp : Byte) : Statement (.oraIzy zp) := ⟨0x11, rfl, rfl, rfl⟩
theorem eorImm (v : Byte) : Statement (.eorImm v) := ⟨0x49, rfl, rfl, rfl⟩
theorem eorZp (zp : Byte) : Statement (.eorZp zp) := ⟨0x45, rfl, rfl, rfl⟩
theorem eorZpx (zp : Byte) : Statement (.eorZpx zp) := ⟨0x55, rfl, rfl, rfl⟩
theorem eorAbs (addr : Word) : Statement (.eorAbs addr) := ⟨0x4D, rfl, rfl, rfl⟩
theorem eorAbx (addr : Word) : Statement (.eorAbx addr) := ⟨0x5D, rfl, rfl, rfl⟩
theorem eorAby (addr : Word) : Statement (.eorAby addr) := ⟨0x59, rfl, rfl, rfl⟩
theorem eorIzx (zp : Byte) : Statement (.eorIzx zp) := ⟨0x41, rfl, rfl, rfl⟩
theorem eorIzy (zp : Byte) : Statement (.eorIzy zp) := ⟨0x51, rfl, rfl, rfl⟩
theorem aslAcc : Statement .aslAcc := ⟨0x0A, rfl, rfl, rfl⟩
theorem aslZp (zp : Byte) : Statement (.aslZp zp) := ⟨0x06, rfl, rfl, rfl⟩
theorem aslZpx (zp : Byte) : Statement (.aslZpx zp) := ⟨0x16, rfl, rfl, rfl⟩
theorem aslAbs (addr : Word) : Statement (.aslAbs addr) := ⟨0x0E, rfl, rfl, rfl⟩
theorem aslAbx (addr : Word) : Statement (.aslAbx addr) := ⟨0x1E, rfl, rfl, rfl⟩
theorem lsrAcc : Statement .lsrAcc := ⟨0x4A, rfl, rfl, rfl⟩
theorem lsrZp (zp : Byte) : Statement (.lsrZp zp) := ⟨0x46, rfl, rfl, rfl⟩
theorem lsrZpx (zp : Byte) : Statement (.lsrZpx zp) := ⟨0x56, rfl, rfl, rfl⟩
theorem lsrAbs (addr : Word) : Statement (.lsrAbs addr) := ⟨0x4E, rfl, rfl, rfl⟩
theorem lsrAbx (addr : Word) : Statement (.lsrAbx addr) := ⟨0x5E, rfl, rfl, rfl⟩
theorem rolAcc : Statement .rolAcc := ⟨0x2A, rfl, rfl, rfl⟩
theorem rolZp (zp : Byte) : Statement (.rolZp zp) := ⟨0x26, rfl, rfl, rfl⟩
theorem rolZpx (zp : Byte) : Statement (.rolZpx zp) := ⟨0x36, rfl, rfl, rfl⟩
theorem rolAbs (addr : Word) : Statement (.rolAbs addr) := ⟨0x2E, rfl, rfl, rfl⟩
theorem rolAbx (addr : Word) : Statement (.rolAbx addr) := ⟨0x3E, rfl, rfl, rfl⟩
theorem rorAcc : Statement .rorAcc := ⟨0x6A, rfl, rfl, rfl⟩
theorem rorZp (zp : Byte) : Statement (.rorZp zp) := ⟨0x66, rfl, rfl, rfl⟩
theorem rorZpx (zp : Byte) : Statement (.rorZpx zp) := ⟨0x76, rfl, rfl, rfl⟩
theorem rorAbs (addr : Word) : Statement (.rorAbs addr) := ⟨0x6E, rfl, rfl, rfl⟩
theorem rorAbx (addr : Word) : Statement (.rorAbx addr) := ⟨0x7E, rfl, rfl, rfl⟩
theorem incZp (zp : Byte) : Statement (.incZp zp) := ⟨0xE6, rfl, rfl, rfl⟩
theorem incZpx (zp : Byte) : Statement (.incZpx zp) := ⟨0xF6, rfl, rfl, rfl⟩
theorem incAbs (addr : Word) : Statement (.incAbs addr) := ⟨0xEE, rfl, rfl, rfl⟩
theorem incAbx (addr : Word) : Statement (.incAbx addr) := ⟨0xFE, rfl, rfl, rfl⟩
theorem decZp (zp : Byte) : Statement (.decZp zp) := ⟨0xC6, rfl, rfl, rfl⟩
theorem decZpx (zp : Byte) : Statement (.decZpx zp) := ⟨0xD6, rfl, rfl, rfl⟩
theorem decAbs (addr : Word) : Statement (.decAbs addr) := ⟨0xCE, rfl, rfl, rfl⟩
theorem decAbx (addr : Word) : Statement (.decAbx addr) := ⟨0xDE, rfl, rfl, rfl⟩
theorem inx : Statement .inx := ⟨0xE8, rfl, rfl, rfl⟩
theorem iny : Statement .iny := ⟨0xC8, rfl, rfl, rfl⟩
theorem dex : Statement .dex := ⟨0xCA, rfl, rfl, rfl⟩
theorem dey : Statement .dey := ⟨0x88, rfl, rfl, rfl⟩
theorem cmpImm (v : Byte) : Statement (.cmpImm v) := ⟨0xC9, rfl, rfl, rfl⟩
theorem cmpZp (zp : Byte) : Statement (.cmpZp zp) := ⟨0xC5, rfl, rfl, rfl⟩
theorem cmpZpx (zp : Byte) : Statement (.cmpZpx zp) := ⟨0xD5, rfl, rfl, rfl⟩
theorem cmpAbs (addr : Word) : Statement (.cmpAbs addr) := ⟨0xCD, rfl, rfl, rfl⟩
theorem cmpAbx (addr : Word) : Statement (.cmpAbx addr) := ⟨0xDD, rfl, rfl, rfl⟩
theorem cmpAby (addr : Word) : Statement (.cmpAby addr) := ⟨0xD9, rfl, rfl, rfl⟩
theorem cmpIzx (zp : Byte) : Statement (.cmpIzx zp) := ⟨0xC1, rfl, rfl, rfl⟩
theorem cmpIzy (zp : Byte) : Statement (.cmpIzy zp) := ⟨0xD1, rfl, rfl, rfl⟩
theorem cpxImm (v : Byte) : Statement (.cpxImm v) := ⟨0xE0, rfl, rfl, rfl⟩
theorem cpxZp (zp : Byte) : Statement (.cpxZp zp) := ⟨0xE4, rfl, rfl, rfl⟩
theorem cpxAbs (addr : Word) : Statement (.cpxAbs addr) := ⟨0xEC, rfl, rfl, rfl⟩
theorem cpyImm (v : Byte) : Statement (.cpyImm v) := ⟨0xC0, rfl, rfl, rfl⟩
theorem cpyZp (zp : Byte) : Statement (.cpyZp zp) := ⟨0xC4, rfl, rfl, rfl⟩
theorem cpyAbs (addr : Word) : Statement (.cpyAbs addr) := ⟨0xCC, rfl, rfl, rfl⟩
theorem bitZp (zp : Byte) : Statement (.bitZp zp) := ⟨0x24, rfl, rfl, rfl⟩
theorem bitAbs (addr : Word) : Statement (.bitAbs addr) := ⟨0x2C, rfl, rfl, rfl⟩
theorem bcc (off : Byte) : Statement (.bcc off) := ⟨0x90, rfl, rfl, rfl⟩
theorem bcs (off : Byte) : Statement (.bcs off) := ⟨0xB0, rfl, rfl, rfl⟩
theorem beq (off : Byte) : Statement (.beq off) := ⟨0xF0, rfl, rfl, rfl⟩
theorem bne (off : Byte) : Statement (.bne off) := ⟨0xD0, rfl, rfl, rfl⟩
theorem bmi (off : Byte) : Statement (.bmi off) := ⟨0x30, rfl, rfl, rfl⟩
theorem bpl (off : Byte) : Statement (.bpl off) := ⟨0x10, rfl, rfl, rfl⟩
theorem bvc (off : Byte) : Statement (.bvc off) := ⟨0x50, rfl, rfl, rfl⟩
theorem bvs (off : Byte) : Statement (.bvs off) := ⟨0x70, rfl, rfl, rfl⟩
theorem jmpAbs (addr : Word) : Statement (.jmpAbs addr) := ⟨0x4C, rfl, rfl, rfl⟩
theorem jmpInd (ptr : Word) : Statement (.jmpInd ptr) := ⟨0x6C, rfl, rfl, rfl⟩
theorem jsr (addr : Word) : Statement (.jsr addr) := ⟨0x20, rfl, rfl, rfl⟩
theorem rts : Statement .rts := ⟨0x60, rfl, rfl, rfl⟩
theorem pha : Statement .pha := ⟨0x48, rfl, rfl, rfl⟩
theorem pla : Statement .pla := ⟨0x68, rfl, rfl, rfl⟩
theorem php : Statement .php := ⟨0x08, rfl, rfl, rfl⟩
theorem plp : Statement .plp := ⟨0x28, rfl, rfl, rfl⟩
theorem rti : Statement .rti := ⟨0x40, rfl, rfl, rfl⟩
theorem clc : Statement .clc := ⟨0x18, rfl, rfl, rfl⟩
theorem sec : Statement .sec := ⟨0x38, rfl, rfl, rfl⟩
theorem cld : Statement .cld := ⟨0xD8, rfl, rfl, rfl⟩
theorem sed : Statement .sed := ⟨0xF8, rfl, rfl, rfl⟩
theorem cli : Statement .cli := ⟨0x58, rfl, rfl, rfl⟩
theorem sei : Statement .sei := ⟨0x78, rfl, rfl, rfl⟩
theorem clv : Statement .clv := ⟨0xB8, rfl, rfl, rfl⟩
theorem nop : Statement .nop := ⟨0xEA, rfl, rfl, rfl⟩
theorem brk : Statement .brk := ⟨0x00, rfl, rfl, rfl⟩

end Sys2Proof.Laws.EncodedOpcode
end

