-- ==== Sys2Proof/Laws/Encoding.lean ====
section
/-!
SUPPORT. Operands and their bytes: taking an operand of a format reads back exactly the bytes written for it,
and assembling gives an instruction of that mnemonic and operand.
-/

namespace Sys2Proof

/-- The operand bytes read back as the operand (R61, R62). -/
theorem takeOperand_bytes (o : Operand) (rest : List Byte) :
    takeOperand o.format (o.bytes ++ rest) = some (o, rest) := by
  cases o with
  | memory m => cases m <;> simp [Operand.format, Mode.format, Operand.bytes, Mode.bytes, takeOperand]
  | _ => rfl

/-- What is taken from a list of bytes is an operand of the format, and its bytes stood at the front. -/
theorem takeOperand_some {f : Format} {bytes rest : List Byte} {o : Operand}
    (h : takeOperand f bytes = some (o, rest)) : o.format = f ∧ bytes = o.bytes ++ rest := by
  unfold takeOperand at h
  split at h <;> cases h <;> simp [Operand.format, Mode.format, Operand.bytes, Mode.bytes]

/-- The number of operand bytes is that of the format (R61). -/
theorem Operand.bytes_length (o : Operand) : o.bytes.length = o.format.operandLength := by
  cases o with
  | memory m => cases m <;> rfl
  | _ => rfl

/-- An assembled instruction has the mnemonic and the operand it was assembled from. -/
theorem assemble_some {m : Mnemonic} {o : Operand} {i : Instr} (h : assemble m o = some i) :
    i.mnemonic = m ∧ i.operand = o := by
  cases m <;> (simp only [assemble] at h; split at h <;> cases h <;> exact ⟨rfl, rfl⟩)

/-- What was looked up, taken and assembled when bytes decode (R60). -/
theorem decode_ok {b : Byte} {bytes rest : List Byte} {i : Instr} (h : decode (b :: bytes) = .ok (i, rest)) :
    decodeByte b = some (i.mnemonic, i.format) ∧ takeOperand i.format bytes = some (i.operand, rest) ∧
      assemble i.mnemonic i.operand = some i := by
  simp only [decode] at h
  split at h
  · cases h
  · next m f hd =>
    split at h
    · cases h
    · next o r ht =>
      split at h
      · next j ha =>
        cases h
        obtain ⟨rfl, rfl⟩ := assemble_some ha
        obtain ⟨rfl, -⟩ := takeOperand_some ht
        exact ⟨hd, ht, ha⟩
      · cases h

end Sys2Proof
end

