-- ==== Sys2Proof/Laws/Step.lean ====
section
/-!
SUPPORT. One step: everything the fetch and the step can do.
-/

namespace Sys2Proof.Machine

theorem readBytes_congr {s t : State} (hr : t.ram = s.ram) (ho : t.rom = s.rom) (n : Nat) :
    ∀ a, readBytes t a n = readBytes s a n := by
  induction n with
  | zero => intro a; rfl
  | succ n ih => intro a; simp only [readBytes, memRead_congr hr ho, ih]

theorem readBytes_ppuFault {s : State} {k : FaultKind} (n : Nat) :
    ∀ a, readBytes s a n = .error k → PpuReadFault k := by
  induction n with
  | zero => intro a h; cases h
  | succ n ih =>
    intro a h
    rcases except_bind_error h with h | ⟨b, -, h⟩
    · exact memRead_ppuFault h
    · rcases except_bind_error h with h | ⟨r, -, h⟩
      · exact ih _ h
      · cases h

/-- Everything a fetch can do (R80, R96, R201): run on into an instruction with PC past its opcode byte, or end in
one of the three fetch faults. -/
theorem fetchInstr_cases (s : State) :
    (∃ i, fetchInstr s = .ok (i, s.advance 1)) ∨
    (∃ k, memRead s s.pc = .error k ∧ fetchInstr s = .error (s.raise k)) ∨
    (∃ b k, memRead s s.pc = .ok b ∧ readBytes s (s.pc + 1#16) (operandCount b) = .error k ∧
      fetchInstr s = .error ((s.advance 1).raise k)) ∨
    (∃ b, memRead s s.pc = .ok b ∧ fetchInstr s = .error ((s.advance 1).raise (.illegalOpcode b))) := by
  have hc (a : Word) (n : Nat) : readBytes (s.advance 1) a n = readBytes s a n :=
    readBytes_congr (by rfl) (by rfl) n a
  have hp : (s.advance 1).pc = s.pc + 1#16 := rfl
  unfold fetchInstr
  cases hb : memRead s s.pc with
  | error k => exact .inr (.inl ⟨k, rfl, rfl⟩)
  | ok b =>
    simp only [hc, hp]
    cases ho : readBytes s (s.pc + 1#16) (operandCount b) with
    | error k => exact .inr (.inr (.inl ⟨b, k, rfl, ho, rfl⟩))
    | ok ops =>
      simp only
      cases hd : decode (b :: ops) with
      | error r => exact .inr (.inr (.inr ⟨b, rfl, rfl⟩))
      | ok p => exact .inl ⟨p.1, rfl⟩

/-- What was read and decoded when a fetch runs on into an instruction (R80). -/
theorem fetchInstr_ok {s u : State} {i : Instr} (h : fetchInstr s = .ok (i, u)) :
    ∃ b operands rest, memRead s s.pc = .ok b ∧ readBytes s (s.pc + 1#16) (operandCount b) = .ok operands ∧
      decode (b :: operands) = .ok (i, rest) ∧ u = s.advance 1 := by
  have hc (a : Word) (n : Nat) : readBytes (s.advance 1) a n = readBytes s a n :=
    readBytes_congr (by rfl) (by rfl) n a
  unfold fetchInstr at h
  split at h
  · cases h
  · next b hb =>
    simp only [hc, show (s.advance 1).pc = s.pc + 1#16 from rfl] at h
    split at h
    · cases h
    · next operands ho =>
      split at h
      · cases h
      · next j rest hd => cases h; exact ⟨b, operands, rest, hb, ho, hd, rfl⟩

/-- Everything a step from Running can do: run an instruction on the state with PC past its opcode byte, or enter a
fault that leaves memory and log alone. -/
theorem step_cases {s t : State} (hr : s.run = .running) (h : step s = .next t) :
    (∃ i, fetchInstr s = .ok (i, s.advance 1) ∧ exec i (s.advance 1) = .next t) ∨
    (∃ k, t = s.raise k) ∨ (∃ k, t = (s.advance 1).raise k) := by
  unfold step at h
  rw [hr] at h
  rcases fetchInstr_cases s with ⟨i, e⟩ | ⟨k, -, e⟩ | ⟨b, k, -, -, e⟩ | ⟨b, -, e⟩ <;> simp only [e] at h
  · exact .inl ⟨i, e, h⟩
  · cases h; exact .inr (.inl ⟨k, rfl⟩)
  · cases h; exact .inr (.inr ⟨k, rfl⟩)
  · cases h; exact .inr (.inr ⟨_, rfl⟩)

/-- A step that answers a next state began Running (R7). -/
theorem step_running {s t : State} (h : step s = .next t) : s.run = .running := by
  unfold step at h
  split at h
  · cases h
  · cases h
  · assumption

/-- From Running a step always answers a next state (R7). -/
theorem step_next {s : State} (hr : s.run = .running) : ∃ t, step s = .next t := by
  unfold step
  rw [hr]
  rcases fetchInstr_cases s with ⟨i, e⟩ | ⟨k, -, e⟩ | ⟨b, k, -, -, e⟩ | ⟨b, -, e⟩ <;> simp only [e]
  · exact exec_next i _
  · exact ⟨_, rfl⟩
  · exact ⟨_, rfl⟩
  · exact ⟨_, rfl⟩

end Sys2Proof.Machine
end

