-- ==== Sys2Proof/Laws/Host.lean ====
section
/-!
SUPPORT. The host's operations (R221 to R224): what a loaded ROM holds, and that a hook's writes touch RAM only.
-/

namespace Sys2Proof.Machine

/-- A filled range reads as the bytes, every other cell as before. -/
theorem fillRom_get (program : List Byte) : ∀ (rom : Memory) (k j : Nat),
    (fillRom rom k program).get j =
      if h : k ≤ j ∧ j - k < program.length then program[j - k] else rom.get j := by
  induction program with
  | nil => intro rom k j; simp [fillRom]
  | cons b rest ih =>
    intro rom k j
    simp only [fillRom, ih, Memory.get_set]
    by_cases h1 : k = j
    · subst h1
      rw [dif_neg (by omega), dif_pos ⟨Nat.le_refl _, by simp⟩]; simp
    · by_cases h2 : k + 1 ≤ j ∧ j - (k + 1) < rest.length
      · rw [dif_pos h2, dif_pos ⟨by omega, by simp; omega⟩]
        have : j - k = (j - (k + 1)) + 1 := by omega
        simp [this]
      · rw [dif_neg h2, dif_neg (by simp; omega)]; simp [h1]

/-- Every cell of a loaded ROM (R221). -/
theorem loadedRom_get (rom : Memory) (program : List Byte) (j : Nat) :
    (loadedRom rom program).get j =
      if j = 0x7FFD then 0x80#8 else if j = 0x7FFC then 0x00#8
      else if h : j < program.length then program[j] else rom.get j := by
  have h1 : romCell Config.resetVector = 0x7FFC := rfl
  have h2 : hi8 Config.loadBase = 0x80#8 := rfl
  have h3 : lo8 Config.loadBase = 0x00#8 := rfl
  simp only [loadedRom, Memory.get_set, fillRom_get, h1, h2, h3, Nat.zero_le, true_and, Nat.sub_zero]
  simp only [eq_comm (b := j)]

/-- The RAM writes of a hook change RAM and nothing else (R224). -/
theorem writeRamCells_eq (writes : List (BitVec 11 × Byte)) :
    ∀ s : State, ∃ ram, writeRamCells s writes = { s with ram := ram } := by
  induction writes with
  | nil => intro s; exact ⟨s.ram, rfl⟩
  | cons w rest ih =>
    intro s
    obtain ⟨ram, h⟩ := ih { s with ram := s.ram.set w.1.toNat w.2 }
    exact ⟨ram, h⟩

/-- The RAM writes of a hook are made in order (R224). -/
theorem writeRamCells_append (l l' : List (BitVec 11 × Byte)) :
    ∀ s : State, writeRamCells s (l ++ l') = writeRamCells (writeRamCells s l) l' := by
  induction l with
  | nil => intro s; rfl
  | cons w rest ih => intro s; exact ih _

/-- A RAM cell that no write names keeps its byte (R224). -/
theorem writeRamCells_get_of_ne (writes : List (BitVec 11 × Byte)) {j : Nat} (h : ∀ w ∈ writes, w.1.toNat ≠ j) :
    ∀ s : State, (writeRamCells s writes).ram.get j = s.ram.get j := by
  induction writes with
  | nil => intro s; rfl
  | cons w rest ih =>
    intro s
    have hw : w.1.toNat ≠ j := h w (List.mem_cons_self ..)
    exact (ih (fun u hu => h u (List.mem_cons_of_mem _ hu)) _).trans (by simp [hw])

end Sys2Proof.Machine
end

