-- ==== Sys2Proof/Tests/Slice0.lean ====
section
/-!
SUPPORT. Tests. The words and the expected results come from the specification: the opcode table of R64 and the
vectors of `95_test_vectors.md`, whose names the tests carry. Each instruction test is one step. The witnesses show,
for every statement with hypotheses, a state and operands that meet them, clause by clause.
-/

namespace Sys2Proof.Machine

-- One theorem at a time: many small evaluations at once would each take a thread.
set_option Elab.async false

/-- The state with instruction bytes at PC and cells holding bytes, as a vector starts. -/
def State.placed (s : State) (bytes : List Byte) (cells : List (Word × Byte)) : State :=
  cells.foldl (fun t c => pokeByte t c.1 c.2) (pokeBytes s s.pc bytes)

/-- Something of a next state. -/
def after {α : Type} (r : Result) (f : State → α) : Option α :=
  match r with
  | .next t => some (f t)
  | _ => none

/-- A byte of memory of a next state, where a read of it completes. -/
def byteAfter (r : Result) (addr : Word) : Option Byte :=
  match r with
  | .next t => (memRead t addr).toOption
  | _ => none

/-! ### Well-formedness: pairs that do not exist are refused (R63) -/

/-- "STA Immediate does not exist" and its like: a mnemonic with a format it lacks is ill formed. -/
theorem test_ill_formed_pairs_are_refused :
    [wellFormedPair .STA (.immediate 0x05), wellFormedPair .LDX (.memory (.zpx 0x10)),
      wellFormedPair .STX (.memory (.abx 0x1234)), wellFormedPair .JMP (.memory (.zp 0x10)),
      wellFormedPair .JSR (.memory (.ind 0x1234)), wellFormedPair .LSR (.immediate 0x01),
      wellFormedPair .LDA .accumulator, wellFormedPair .BIT (.immediate 0x01), wellFormedPair .NOP (.relative 0x00),
      wellFormedPair .INC .accumulator] = List.replicate 10 false := by decide

theorem test_well_formed_pairs_are_taken :
    [wellFormedPair .LDX (.memory (.zpy 0x10)), wellFormedPair .JMP (.memory (.ind 0x1234)),
      wellFormedPair .ROR .accumulator, wellFormedPair .BNE (.relative 0xFE), wellFormedPair .BRK .implied] =
      List.replicate 5 true := by decide

/-! ### Decoding: every byte of the opcode map of R64, with the operand bytes 0x34 and 0x12 where it has them -/

/-- The instruction a word of up to three bytes decodes to. -/
def decoded (bytes : List Byte) : Option Instr := (decode bytes).toOption.map Prod.fst

theorem test_decode_row_0 :
    [[0x00], [0x01, 0x34], [0x05, 0x34], [0x06, 0x34], [0x08], [0x09, 0x34], [0x0A], [0x0D, 0x34, 0x12],
      [0x0E, 0x34, 0x12]].map decoded =
    [.brk, .oraIzx 0x34, .oraZp 0x34, .aslZp 0x34, .php, .oraImm 0x34, .aslAcc, .oraAbs 0x1234, .aslAbs 0x1234].map some := rfl

theorem test_decode_row_1 :
    [[0x10, 0x34], [0x11, 0x34], [0x15, 0x34], [0x16, 0x34], [0x18], [0x19, 0x34, 0x12], [0x1D, 0x34, 0x12],
      [0x1E, 0x34, 0x12]].map decoded =
    [.bpl 0x34, .oraIzy 0x34, .oraZpx 0x34, .aslZpx 0x34, .clc, .oraAby 0x1234, .oraAbx 0x1234, .aslAbx 0x1234].map some := rfl

theorem test_decode_row_2 :
    [[0x20, 0x34, 0x12], [0x21, 0x34], [0x24, 0x34], [0x25, 0x34], [0x26, 0x34], [0x28], [0x29, 0x34], [0x2A],
      [0x2C, 0x34, 0x12], [0x2D, 0x34, 0x12], [0x2E, 0x34, 0x12]].map decoded =
    [.jsr 0x1234, .andIzx 0x34, .bitZp 0x34, .andZp 0x34, .rolZp 0x34, .plp, .andImm 0x34, .rolAcc,
      .bitAbs 0x1234, .andAbs 0x1234, .rolAbs 0x1234].map some := rfl

theorem test_decode_row_3 :
    [[0x30, 0x34], [0x31, 0x34], [0x35, 0x34], [0x36, 0x34], [0x38], [0x39, 0x34, 0x12], [0x3D, 0x34, 0x12],
      [0x3E, 0x34, 0x12]].map decoded =
    [.bmi 0x34, .andIzy 0x34, .andZpx 0x34, .rolZpx 0x34, .sec, .andAby 0x1234, .andAbx 0x1234, .rolAbx 0x1234].map some := rfl

theorem test_decode_row_4 :
    [[0x40], [0x41, 0x34], [0x45, 0x34], [0x46, 0x34], [0x48], [0x49, 0x34], [0x4A], [0x4C, 0x34, 0x12],
      [0x4D, 0x34, 0x12], [0x4E, 0x34, 0x12]].map decoded =
    [.rti, .eorIzx 0x34, .eorZp 0x34, .lsrZp 0x34, .pha, .eorImm 0x34, .lsrAcc, .jmpAbs 0x1234,
      .eorAbs 0x1234, .lsrAbs 0x1234].map some := rfl

theorem test_decode_row_5 :
    [[0x50, 0x34], [0x51, 0x34], [0x55, 0x34], [0x56, 0x34], [0x58], [0x59, 0x34, 0x12], [0x5D, 0x34, 0x12],
      [0x5E, 0x34, 0x12]].map decoded =
    [.bvc 0x34, .eorIzy 0x34, .eorZpx 0x34, .lsrZpx 0x34, .cli, .eorAby 0x1234, .eorAbx 0x1234, .lsrAbx 0x1234].map some := rfl

theorem test_decode_row_6 :
    [[0x60], [0x61, 0x34], [0x65, 0x34], [0x66, 0x34], [0x68], [0x69, 0x34], [0x6A], [0x6C, 0x34, 0x12],
      [0x6D, 0x34, 0x12], [0x6E, 0x34, 0x12]].map decoded =
    [.rts, .adcIzx 0x34, .adcZp 0x34, .rorZp 0x34, .pla, .adcImm 0x34, .rorAcc, .jmpInd 0x1234,
      .adcAbs 0x1234, .rorAbs 0x1234].map some := rfl

theorem test_decode_row_7 :
    [[0x70, 0x34], [0x71, 0x34], [0x75, 0x34], [0x76, 0x34], [0x78], [0x79, 0x34, 0x12], [0x7D, 0x34, 0x12],
      [0x7E, 0x34, 0x12]].map decoded =
    [.bvs 0x34, .adcIzy 0x34, .adcZpx 0x34, .rorZpx 0x34, .sei, .adcAby 0x1234, .adcAbx 0x1234, .rorAbx 0x1234].map some := rfl

theorem test_decode_row_8 :
    [[0x81, 0x34], [0x84, 0x34], [0x85, 0x34], [0x86, 0x34], [0x88], [0x8A], [0x8C, 0x34, 0x12],
      [0x8D, 0x34, 0x12], [0x8E, 0x34, 0x12]].map decoded =
    [.staIzx 0x34, .styZp 0x34, .staZp 0x34, .stxZp 0x34, .dey, .txa, .styAbs 0x1234, .staAbs 0x1234,
      .stxAbs 0x1234].map some := rfl

theorem test_decode_row_9 :
    [[0x90, 0x34], [0x91, 0x34], [0x94, 0x34], [0x95, 0x34], [0x96, 0x34], [0x98], [0x99, 0x34, 0x12], [0x9A],
      [0x9D, 0x34, 0x12]].map decoded =
    [.bcc 0x34, .staIzy 0x34, .styZpx 0x34, .staZpx 0x34, .stxZpy 0x34, .tya, .staAby 0x1234, .txs,
      .staAbx 0x1234].map some := rfl

theorem test_decode_row_A :
    [[0xA0, 0x34], [0xA1, 0x34], [0xA2, 0x34], [0xA4, 0x34], [0xA5, 0x34], [0xA6, 0x34], [0xA8], [0xA9, 0x34],
      [0xAA], [0xAC, 0x34, 0x12], [0xAD, 0x34, 0x12], [0xAE, 0x34, 0x12]].map decoded =
    [.ldyImm 0x34, .ldaIzx 0x34, .ldxImm 0x34, .ldyZp 0x34, .ldaZp 0x34, .ldxZp 0x34, .tay, .ldaImm 0x34,
      .tax, .ldyAbs 0x1234, .ldaAbs 0x1234, .ldxAbs 0x1234].map some := rfl

theorem test_decode_row_B :
    [[0xB0, 0x34], [0xB1, 0x34], [0xB4, 0x34], [0xB5, 0x34], [0xB6, 0x34], [0xB8], [0xB9, 0x34, 0x12], [0xBA],
      [0xBC, 0x34, 0x12], [0xBD, 0x34, 0x12], [0xBE, 0x34, 0x12]].map decoded =
    [.bcs 0x34, .ldaIzy 0x34, .ldyZpx 0x34, .ldaZpx 0x34, .ldxZpy 0x34, .clv, .ldaAby 0x1234, .tsx,
      .ldyAbx 0x1234, .ldaAbx 0x1234, .ldxAby 0x1234].map some := rfl

theorem test_decode_row_C :
    [[0xC0, 0x34], [0xC1, 0x34], [0xC4, 0x34], [0xC5, 0x34], [0xC6, 0x34], [0xC8], [0xC9, 0x34], [0xCA],
      [0xCC, 0x34, 0x12], [0xCD, 0x34, 0x12], [0xCE, 0x34, 0x12]].map decoded =
    [.cpyImm 0x34, .cmpIzx 0x34, .cpyZp 0x34, .cmpZp 0x34, .decZp 0x34, .iny, .cmpImm 0x34, .dex,
      .cpyAbs 0x1234, .cmpAbs 0x1234, .decAbs 0x1234].map some := rfl

theorem test_decode_row_D :
    [[0xD0, 0x34], [0xD1, 0x34], [0xD5, 0x34], [0xD6, 0x34], [0xD8], [0xD9, 0x34, 0x12], [0xDD, 0x34, 0x12],
      [0xDE, 0x34, 0x12]].map decoded =
    [.bne 0x34, .cmpIzy 0x34, .cmpZpx 0x34, .decZpx 0x34, .cld, .cmpAby 0x1234, .cmpAbx 0x1234, .decAbx 0x1234].map some := rfl

theorem test_decode_row_E :
    [[0xE0, 0x34], [0xE1, 0x34], [0xE4, 0x34], [0xE5, 0x34], [0xE6, 0x34], [0xE8], [0xE9, 0x34], [0xEA],
      [0xEC, 0x34, 0x12], [0xED, 0x34, 0x12], [0xEE, 0x34, 0x12]].map decoded =
    [.cpxImm 0x34, .sbcIzx 0x34, .cpxZp 0x34, .sbcZp 0x34, .incZp 0x34, .inx, .sbcImm 0x34, .nop,
      .cpxAbs 0x1234, .sbcAbs 0x1234, .incAbs 0x1234].map some := rfl

theorem test_decode_row_F :
    [[0xF0, 0x34], [0xF1, 0x34], [0xF5, 0x34], [0xF6, 0x34], [0xF8], [0xF9, 0x34, 0x12], [0xFD, 0x34, 0x12],
      [0xFE, 0x34, 0x12]].map decoded =
    [.beq 0x34, .sbcIzy 0x34, .sbcZpx 0x34, .incZpx 0x34, .sed, .sbcAby 0x1234, .sbcAbx 0x1234, .incAbx 0x1234].map some := rfl

/-- The illegal neighbours of legal bytes are refused by name (R65); so are a missing operand byte and no byte (R60). -/
theorem test_decode_refuses :
    decode [0x02] = .error (.illegalOpcode 0x02) ∧ decode [0x9E, 0x00, 0x00] = .error (.illegalOpcode 0x9E) ∧
      decode [0xEB, 0x01] = .error (.illegalOpcode 0xEB) ∧ decode [0xFF] = .error (.illegalOpcode 0xFF) ∧
      decode [0xAD, 0x34] = .error (.missingOperandByte 0xAD) ∧ decode [] = .error .noBytes := by
  exact ⟨rfl, rfl, rfl, rfl, rfl, rfl⟩

/-- The host's numbering: the opcode byte in bits 7 to 0, the operand bytes above it, low byte first. -/
theorem test_table_words :
    decodeTableWord 24 0x1234AD = some (.ldaAbs 0x1234) ∧ decodeTableWord 8 0xAD = some (.ldaAbs 0x0000) ∧
      decodeTableWord 16 0xF8D0 = some (.bne 0xF8) ∧ decodeTableWord 8 0x02 = none := by
  exact ⟨rfl, rfl, rfl, rfl⟩

/-- A placed word is what the next step runs, from reset (log entry 7). -/
theorem test_withFetchWord_runs :
    (after (step (State.reset.withFetchWord 16 0x10A9)) fun t => (t.a, t.pc)) = some (0x10, 0x0002) ∧
      (after (step (State.reset.withFetchWord 8 0x9A)) fun t => (t.sp, t.pc)) = some (0x00, 0x0001) := by
  decide +kernel

/-- With PC in a window that holds no bytes, the word goes to LOAD_BASE (log entry 7). -/
theorem test_withFetchWord_moves_pc :
    (after (step ({ State.reset with pc := 0x3FFF, run := .halted }.withFetchWord 8 0xE8)) fun t => (t.x, t.pc)) =
      some (0x01, 0x8001) := by decide +kernel

/-! ### Reset -/

/-- `State.reset` is what the host's reset gives (R19, R222). -/
theorem test_reset_is_the_host_reset : hostReset State.reset = State.reset := by decide +kernel

theorem test_reset_memory_wf :
    State.reset.ram.wf Config.ramSize = true ∧ State.reset.rom.wf Config.romSize = true := by decide

/-- A write of what an unlisted cell reads as takes the entry off the list. -/
theorem test_memory_canonical :
    ((Memory.empty.set 5 0x01).set 3 0x02).set 5 0x00 = ⟨[(3, 0x02)]⟩ ∧
      (⟨[(5, 0x01), (3, 0x02)]⟩ : Memory).wf 8 = false ∧ (⟨[(3, 0x00)]⟩ : Memory).wf 8 = false ∧
      (⟨[(8, 0x01)]⟩ : Memory).wf 8 = false := by decide +kernel

/-! ### One step of each instruction -/

/-- Vector L9: `LDA ($FE,X)` (R100, R92). -/
theorem test_lda_L9 :
    let s := step ({ State.reset with pc := 0x8000, x := 0x01 }.placed [0xA1, 0xFE] [(0x00FF, 0x34), (0x0000, 0x02), (0x0100, 0x07), (0x0234, 0xC3)])
    (after s fun t => (t.a, t.p)) = some (0xC3, 0x80) := by decide +kernel

/-- Vector E6: `LDA $3FFF` (R202). -/
theorem test_lda_E6 :
    let s := step ({ State.reset with pc := 0x8000 }.placed [0xAD, 0xFF, 0x3F] [])
    (after s fun t => (t.run, t.log)) = some (.faulted (.unsupportedRegion 0x3FFF .read), []) := by decide +kernel

/-- Vector L5: `LDX $FF,Y` (R101, R87). -/
theorem test_ldx_L5 :
    let s := step ({ State.reset with pc := 0x8000, y := 0x02 }.placed [0xB6, 0xFF] [(0x0001, 0x80)])
    (after s fun t => (t.x, t.p)) = some (0x80, 0x80) := by decide +kernel

/-- Vector L15: `LDX $8000` (R101, R36). -/
theorem test_ldx_L15 :
    let s := step ({ State.reset with pc := 0x8000 }.placed [0xAE, 0x00, 0x80] [])
    (after s fun t => (t.x, t.p)) = some (0xAE, 0x80) := by decide +kernel

/-- Vector L12: `LDY $0200,X` (R102, R89). -/
theorem test_ldy_L12 :
    let s := step ({ State.reset with pc := 0x8000, x := 0xFF, p := 0x80 }.placed [0xBC, 0x00, 0x02] [(0x02FF, 0x00)])
    (after s fun t => t.p) = some 0x02 := by decide +kernel

/-- Vector L14: `LDY #$00` (R102). -/
theorem test_ldy_L14 :
    let s := step ({ State.reset with pc := 0x8000, y := 0x09 }.placed [0xA0, 0x00] [])
    (after s fun t => (t.y, t.p)) = some (0x00, 0x02) := by decide +kernel

/-- Vector L23: `STA ($30),Y` (R103, R93). -/
theorem test_sta_L23 :
    let s := step ({ State.reset with pc := 0x8000, a := 0x5D, y := 0x04 }.placed [0x91, 0x30] [(0x0030, 0x00), (0x0031, 0x03)])
    (after s fun t => t.p) = some 0x00 ∧
      byteAfter s 0x0304 = some 0x5D := by decide +kernel

/-- Vector E11: `STA $FFFC` (R203). -/
theorem test_sta_E11 :
    let s := step ({ State.reset with pc := 0x8000, a := 0x01 }.placed [0x8D, 0xFC, 0xFF] [])
    (after s fun t => (t.run, t.log)) = some (.faulted (.romWriteViolation 0xFFFC 0x01), []) := by decide +kernel

/-- Vector L18: `STX $80,Y` (R104, R87). -/
theorem test_stx_L18 :
    let s := step ({ State.reset with pc := 0x8000, x := 0x12, y := 0x90 }.placed [0x96, 0x80] [])
    (after s fun t => t.p) = some 0x00 ∧
      byteAfter s 0x0010 = some 0x12 := by decide +kernel

/-- Vector L24: `STX $0300` (R104, R88). -/
theorem test_stx_L24 :
    let s := step ({ State.reset with pc := 0x8000, x := 0x21 }.placed [0x8E, 0x00, 0x03] [])
    (after s fun t => t.p) = some 0x00 ∧
      byteAfter s 0x0300 = some 0x21 := by decide +kernel

/-- Vector L19: `STY $80,X` (R105, R86). -/
theorem test_sty_L19 :
    let s := step ({ State.reset with pc := 0x8000, x := 0x7F, y := 0x12 }.placed [0x94, 0x80] [])
    (after s fun t => t.p) = some 0x00 ∧
      byteAfter s 0x00FF = some 0x12 := by decide +kernel

/-- Vector L25: `STY $0301` (R105, R88). -/
theorem test_sty_L25 :
    let s := step ({ State.reset with pc := 0x8000, y := 0x22 }.placed [0x8C, 0x01, 0x03] [])
    (after s fun t => t.p) = some 0x00 ∧
      byteAfter s 0x0301 = some 0x22 := by decide +kernel

/-- Vector L26: `TAX` (R106). -/
theorem test_tax_L26 :
    let s := step ({ State.reset with pc := 0x8000, a := 0x80 }.placed [0xAA] [])
    (after s fun t => (t.x, t.p)) = some (0x80, 0x80) := by decide +kernel

/-- Vector L27: `TAY` (R107). -/
theorem test_tay_L27 :
    let s := step ({ State.reset with pc := 0x8000, y := 0x05 }.placed [0xA8] [])
    (after s fun t => (t.y, t.p)) = some (0x00, 0x02) := by decide +kernel

/-- Vector L28: `TXA` (R108). -/
theorem test_txa_L28 :
    let s := step ({ State.reset with pc := 0x8000, a := 0x80, x := 0x7F, p := 0x80 }.placed [0x8A] [])
    (after s fun t => (t.a, t.p)) = some (0x7F, 0x00) := by decide +kernel

/-- Vector L29: `TYA` (R109). -/
theorem test_tya_L29 :
    let s := step ({ State.reset with pc := 0x8000, a := 0x01 }.placed [0x98] [])
    (after s fun t => (t.a, t.p)) = some (0x00, 0x02) := by decide +kernel

/-- Vector L31: `TSX` (R110). -/
theorem test_tsx_L31 :
    let s := step ({ State.reset with pc := 0x8000, x := 0x44, p := 0x80, sp := 0x00 }.placed [0xBA] [])
    (after s fun t => (t.x, t.p)) = some (0x00, 0x02) := by decide +kernel

/-- Vector L33: `TXS` (R111). -/
theorem test_txs_L33 :
    let s := step ({ State.reset with pc := 0x8000, x := 0x80, p := 0x02, sp := 0x10 }.placed [0x9A] [])
    (after s fun t => (t.sp, t.p)) = some (0x80, 0x02) := by decide +kernel

/-- Vector A1: `ADC #$90` (R122). -/
theorem test_adc_A1 :
    let s := step ({ State.reset with pc := 0x8000, a := 0xD0 }.placed [0x69, 0x90] [])
    (after s fun t => (t.a, t.p)) = some (0x60, 0x41) := by decide +kernel

/-- Vector A5: `ADC #$00` (R122). -/
theorem test_adc_A5 :
    let s := step ({ State.reset with pc := 0x8000, a := 0x7F, p := 0x01 }.placed [0x69, 0x00] [])
    (after s fun t => (t.a, t.p)) = some (0x80, 0xC0) := by decide +kernel

/-- Vector A16: `SBC #$01` (R123). -/
theorem test_sbc_A16 :
    let s := step ({ State.reset with pc := 0x8000, a := 0x80, p := 0x01 }.placed [0xE9, 0x01] [])
    (after s fun t => (t.a, t.p)) = some (0x7F, 0x41) := by decide +kernel

/-- Vector A21: `SBC ($40),Y` (R123, R93). -/
theorem test_sbc_A21 :
    let s := step ({ State.reset with pc := 0x8000, a := 0x10, y := 0x02, p := 0x01 }.placed [0xF1, 0x40] [(0x0040, 0x00), (0x0041, 0x02), (0x0202, 0x01)])
    (after s fun t => (t.a, t.p)) = some (0x0F, 0x01) := by decide +kernel

/-- Vector G1: `AND #$0F` (R124). -/
theorem test_and_G1 :
    let s := step ({ State.reset with pc := 0x8000, a := 0xF0, p := 0x41 }.placed [0x29, 0x0F] [])
    (after s fun t => (t.a, t.p)) = some (0x00, 0x43) := by decide +kernel

/-- Vector G8: `ORA $10,X` (R125, R86). -/
theorem test_ora_G8 :
    let s := step ({ State.reset with pc := 0x8000, a := 0x10, x := 0x01 }.placed [0x15, 0x10] [(0x0011, 0x01)])
    (after s fun t => (t.a, t.p)) = some (0x11, 0x00) := by decide +kernel

/-- Vector G9: `EOR ($20,X)` (R126, R92). -/
theorem test_eor_G9 :
    let s := step ({ State.reset with pc := 0x8000, a := 0xAA, x := 0x02 }.placed [0x41, 0x20] [(0x0022, 0x00), (0x0023, 0x03), (0x0300, 0xAA)])
    (after s fun t => (t.a, t.p)) = some (0x00, 0x02) := by decide +kernel

/-- Vector H3: `ASL A` (R131). -/
theorem test_asl_H3 :
    let s := step ({ State.reset with pc := 0x8000, a := 0x01, p := 0x80 }.placed [0x0A] [])
    (after s fun t => (t.a, t.p)) = some (0x02, 0x00) := by decide +kernel

/-- Vector H16: `ASL $4000` (R131, R35). -/
theorem test_asl_H16 :
    let s := step ({ State.reset with pc := 0x8000, p := 0x81 }.placed [0x0E, 0x00, 0x40] [])
    (after s fun t => t.p) = some 0x02 ∧
      (after s fun t => t.log) = some [.ignoredWrite 0x4000 0x00] := by decide +kernel

/-- Vector H5: `LSR A` (R132). -/
theorem test_lsr_H5 :
    let s := step ({ State.reset with pc := 0x8000, a := 0x01, p := 0x80 }.placed [0x4A] [])
    (after s fun t => (t.a, t.p)) = some (0x00, 0x03) := by decide +kernel

/-- Vector H6: `LSR $10` (R132). -/
theorem test_lsr_H6 :
    let s := step ({ State.reset with pc := 0x8000, p := 0x01 }.placed [0x46, 0x10] [(0x0010, 0x82)])
    (after s fun t => t.p) = some 0x00 ∧
      byteAfter s 0x0010 = some 0x41 := by decide +kernel

/-- Vector H7: `ROL A` (R133). -/
theorem test_rol_H7 :
    let s := step ({ State.reset with pc := 0x8000, a := 0x80, p := 0x01 }.placed [0x2A] [])
    (after s fun t => (t.a, t.p)) = some (0x01, 0x01) := by decide +kernel

/-- Vector H9: `ROL $0300` (R133, R88). -/
theorem test_rol_H9 :
    let s := step ({ State.reset with pc := 0x8000 }.placed [0x2E, 0x00, 0x03] [(0x0300, 0x40)])
    (after s fun t => t.p) = some 0x80 ∧
      byteAfter s 0x0300 = some 0x80 := by decide +kernel

/-- Vector H11: `ROR A` (R134). -/
theorem test_ror_H11 :
    let s := step ({ State.reset with pc := 0x8000, p := 0x01 }.placed [0x6A] [])
    (after s fun t => (t.a, t.p)) = some (0x80, 0x80) := by decide +kernel

/-- Vector H12: `ROR $10,X` (R134, R86). -/
theorem test_ror_H12 :
    let s := step ({ State.reset with pc := 0x8000, x := 0x01, p := 0x01 }.placed [0x76, 0x10] [(0x0011, 0x03)])
    (after s fun t => t.p) = some 0x81 ∧
      byteAfter s 0x0011 = some 0x81 := by decide +kernel

/-- Vector I1: `INC $10` (R135). -/
theorem test_inc_I1 :
    let s := step ({ State.reset with pc := 0x8000, p := 0x01 }.placed [0xE6, 0x10] [(0x0010, 0xFF)])
    (after s fun t => t.p) = some 0x03 ∧
      byteAfter s 0x0010 = some 0x00 := by decide +kernel

/-- Vector I13: `INC $9000` (R135, R203). -/
theorem test_inc_I13 :
    let s := step ({ State.reset with pc := 0x8000 }.placed [0xEE, 0x00, 0x90] [(0x9000, 0x07)])
    (after s fun t => (t.run, t.log)) = some (.faulted (.romWriteViolation 0x9000 0x08), []) := by decide +kernel

/-- Vector I3: `DEC $10` (R136). -/
theorem test_dec_I3 :
    let s := step ({ State.reset with pc := 0x8000, p := 0x01 }.placed [0xC6, 0x10] [(0x0010, 0x00)])
    (after s fun t => t.p) = some 0x81 ∧
      byteAfter s 0x0010 = some 0xFF := by decide +kernel

/-- Vector I12: `DEC $FF,X` (R136, R86). -/
theorem test_dec_I12 :
    let s := step ({ State.reset with pc := 0x8000, x := 0x02 }.placed [0xD6, 0xFF] [(0x0001, 0x80)])
    (after s fun t => t.p) = some 0x00 ∧
      byteAfter s 0x0001 = some 0x7F := by decide +kernel

/-- Vector I5: `INX` (R137). -/
theorem test_inx_I5 :
    let s := step ({ State.reset with pc := 0x8000, x := 0xFF }.placed [0xE8] [])
    (after s fun t => (t.x, t.p)) = some (0x00, 0x02) := by decide +kernel

/-- Vector I7: `INY` (R138). -/
theorem test_iny_I7 :
    let s := step ({ State.reset with pc := 0x8000, y := 0x7F }.placed [0xC8] [])
    (after s fun t => (t.y, t.p)) = some (0x80, 0x80) := by decide +kernel

/-- Vector I9: `DEX` (R139). -/
theorem test_dex_I9 :
    let s := step ({ State.reset with pc := 0x8000 }.placed [0xCA] [])
    (after s fun t => (t.x, t.p)) = some (0xFF, 0x80) := by decide +kernel

/-- Vector I10: `DEY` (R140). -/
theorem test_dey_I10 :
    let s := step ({ State.reset with pc := 0x8000, y := 0x01, p := 0x81 }.placed [0x88] [])
    (after s fun t => (t.y, t.p)) = some (0x00, 0x03) := by decide +kernel

/-- Vector Q4: `CMP #$FF` (R150). -/
theorem test_cmp_Q4 :
    let s := step ({ State.reset with pc := 0x8000 }.placed [0xC9, 0xFF] [])
    (after s fun t => t.p) = some 0x00 := by decide +kernel

/-- Vector Q5: `CMP #$01` (R150). -/
theorem test_cmp_Q5 :
    let s := step ({ State.reset with pc := 0x8000, a := 0x80, p := 0x40 }.placed [0xC9, 0x01] [])
    (after s fun t => t.p) = some 0x41 := by decide +kernel

/-- Vector Q7: `CPX $10` (R151, R85). -/
theorem test_cpx_Q7 :
    let s := step ({ State.reset with pc := 0x8000, x := 0x10 }.placed [0xE4, 0x10] [(0x0010, 0x11)])
    (after s fun t => t.p) = some 0x80 := by decide +kernel

/-- Vector Q9: `CPY $0300` (R152, R88). -/
theorem test_cpy_Q9 :
    let s := step ({ State.reset with pc := 0x8000, y := 0x90 }.placed [0xCC, 0x00, 0x03] [(0x0300, 0x10)])
    (after s fun t => t.p) = some 0x81 := by decide +kernel

/-- Vector Q11: `BIT $10` (R153). -/
theorem test_bit_Q11 :
    let s := step ({ State.reset with pc := 0x8000, a := 0x0F, p := 0x01 }.placed [0x24, 0x10] [(0x0010, 0xF0)])
    (after s fun t => t.p) = some 0xC3 := by decide +kernel

/-- Vector Q12: `BIT $0300` (R153). -/
theorem test_bit_Q12 :
    let s := step ({ State.reset with pc := 0x8000, a := 0xFF, p := 0xC2 }.placed [0x2C, 0x00, 0x03] [(0x0300, 0x3F)])
    (after s fun t => t.p) = some 0x00 := by decide +kernel

/-- Vector B9: `BCC $8004` (R161). -/
theorem test_bcc_B9 :
    let s := step ({ State.reset with pc := 0x8000 }.placed [0x90, 0x02] [])
    (after s fun t => t.pc) = some 0x8004 := by decide +kernel

/-- Vector B10: `BCC $8004` (R161). -/
theorem test_bcc_B10 :
    let s := step ({ State.reset with pc := 0x8000, p := 0x01 }.placed [0x90, 0x02] [])
    (after s fun t => t.pc) = some 0x8002 := by decide +kernel

/-- Vector B11: `BCS $8004` (R162). -/
theorem test_bcs_B11 :
    let s := step ({ State.reset with pc := 0x8000, p := 0x01 }.placed [0xB0, 0x02] [])
    (after s fun t => t.pc) = some 0x8004 := by decide +kernel

/-- Vector B12: `BCS $8004` (R162). -/
theorem test_bcs_B12 :
    let s := step ({ State.reset with pc := 0x8000 }.placed [0xB0, 0x02] [])
    (after s fun t => t.pc) = some 0x8002 := by decide +kernel

/-- Vector B3: `BEQ $7FFE` (R163). -/
theorem test_beq_B3 :
    let s := step ({ State.reset with pc := 0x8000, p := 0x02 }.placed [0xF0, 0xFC] [])
    (after s fun t => t.pc) = some 0x7FFE := by decide +kernel

/-- Vector B4: `BEQ $7F82` (R163). -/
theorem test_beq_B4 :
    let s := step ({ State.reset with pc := 0x8000, p := 0x02 }.placed [0xF0, 0x80] [])
    (after s fun t => t.pc) = some 0x7F82 := by decide +kernel

/-- Vector B19: `BNE $0005` (R164, R13). -/
theorem test_bne_B19 :
    let s := step ({ State.reset with pc := 0xFFFE }.placed [0xD0, 0x05] [])
    (after s fun t => t.pc) = some 0x0005 := by decide +kernel

/-- Vector B2: `BNE $8012` (R164). -/
theorem test_bne_B2 :
    let s := step ({ State.reset with pc := 0x8000, p := 0x02 }.placed [0xD0, 0x10] [])
    (after s fun t => t.pc) = some 0x8002 := by decide +kernel

/-- Vector B7: `BMI $8004` (R165). -/
theorem test_bmi_B7 :
    let s := step ({ State.reset with pc := 0x8000, p := 0x80 }.placed [0x30, 0x02] [])
    (after s fun t => t.pc) = some 0x8004 := by decide +kernel

/-- Vector B8: `BMI $8004` (R165). -/
theorem test_bmi_B8 :
    let s := step ({ State.reset with pc := 0x8000 }.placed [0x30, 0x02] [])
    (after s fun t => t.pc) = some 0x8002 := by decide +kernel

/-- Vector B5: `BPL $8081` (R166). -/
theorem test_bpl_B5 :
    let s := step ({ State.reset with pc := 0x8000 }.placed [0x10, 0x7F] [])
    (after s fun t => t.pc) = some 0x8081 := by decide +kernel

/-- Vector B6: `BPL $8004` (R166). -/
theorem test_bpl_B6 :
    let s := step ({ State.reset with pc := 0x8000, p := 0x80 }.placed [0x10, 0x02] [])
    (after s fun t => t.pc) = some 0x8002 := by decide +kernel

/-- Vector B13: `BVC $8004` (R167). -/
theorem test_bvc_B13 :
    let s := step ({ State.reset with pc := 0x8000 }.placed [0x50, 0x02] [])
    (after s fun t => t.pc) = some 0x8004 := by decide +kernel

/-- Vector B14: `BVC $8004` (R167). -/
theorem test_bvc_B14 :
    let s := step ({ State.reset with pc := 0x8000, p := 0x40 }.placed [0x50, 0x02] [])
    (after s fun t => t.pc) = some 0x8002 := by decide +kernel

/-- Vector B15: `BVS $8004` (R168). -/
theorem test_bvs_B15 :
    let s := step ({ State.reset with pc := 0x8000, p := 0x40 }.placed [0x70, 0x02] [])
    (after s fun t => t.pc) = some 0x8004 := by decide +kernel

/-- Vector B16: `BVS $8004` (R168). -/
theorem test_bvs_B16 :
    let s := step ({ State.reset with pc := 0x8000 }.placed [0x70, 0x02] [])
    (after s fun t => t.pc) = some 0x8002 := by decide +kernel

/-- Vector J3: `JMP ($02FF)` (R169, R91). -/
theorem test_jmp_J3 :
    let s := step ({ State.reset with pc := 0x8000 }.placed [0x6C, 0xFF, 0x02] [(0x02FF, 0x34), (0x0200, 0x12), (0x0300, 0x99)])
    (after s fun t => t.pc) = some 0x1234 := by decide +kernel

/-- Vector J4: `JMP ($30FF)` (R169, R91, R202). -/
theorem test_jmp_J4 :
    let s := step ({ State.reset with pc := 0x8000 }.placed [0x6C, 0xFF, 0x30] [])
    (after s fun t => (t.run, t.log)) = some (.faulted (.unsupportedRegion 0x30FF .read), []) := by decide +kernel

/-- Vector J5: `JSR $1234` (R170, R42). -/
theorem test_jsr_J5 :
    let s := step ({ State.reset with pc := 0x8000 }.placed [0x20, 0x34, 0x12] [])
    (after s fun t => (t.sp, t.pc)) = some (0xFD, 0x1234) ∧
      byteAfter s 0x01FE = some 0x02 ∧
      byteAfter s 0x01FF = some 0x80 := by decide +kernel

/-- Vector J6: `JSR $1234` (R170, R42). -/
theorem test_jsr_J6 :
    let s := step ({ State.reset with pc := 0x8000, sp := 0x00 }.placed [0x20, 0x34, 0x12] [])
    (after s fun t => (t.sp, t.pc)) = some (0xFE, 0x1234) ∧
      (after s fun t => t.log) = some [.stackWrap .push] ∧
      byteAfter s 0x0100 = some 0x80 ∧
      byteAfter s 0x01FF = some 0x02 := by decide +kernel

/-- Vector J7: `RTS` (R171, R43). -/
theorem test_rts_J7 :
    let s := step ({ State.reset with pc := 0x8000, sp := 0xFD }.placed [0x60] [(0x01FE, 0x02), (0x01FF, 0x80)])
    (after s fun t => (t.sp, t.pc)) = some (0xFF, 0x8003) := by decide +kernel

/-- Vector J9: `RTS` (R171, R43). -/
theorem test_rts_J9 :
    let s := step ({ State.reset with pc := 0x8000 }.placed [0x60] [(0x0100, 0x10), (0x0101, 0x90)])
    (after s fun t => (t.sp, t.pc)) = some (0x01, 0x9011) ∧
      (after s fun t => t.log) = some [.stackWrap .pop] := by decide +kernel

/-- Vector K1: `PHA` (R180). -/
theorem test_pha_K1 :
    let s := step ({ State.reset with pc := 0x8000, a := 0x42, p := 0x80 }.placed [0x48] [])
    (after s fun t => (t.sp, t.p)) = some (0xFE, 0x80) ∧
      byteAfter s 0x01FF = some 0x42 := by decide +kernel

/-- Vector K4: `PHA` (R180, R42). -/
theorem test_pha_K4 :
    let s := step ({ State.reset with pc := 0x8000, a := 0x42, sp := 0x00 }.placed [0x48] [])
    (after s fun t => (t.sp, t.p)) = some (0xFF, 0x00) ∧
      (after s fun t => t.log) = some [.stackWrap .push] ∧
      byteAfter s 0x0100 = some 0x42 := by decide +kernel

/-- Vector K2: `PLA` (R181). -/
theorem test_pla_K2 :
    let s := step ({ State.reset with pc := 0x8000, a := 0x55, sp := 0xFE }.placed [0x68] [(0x01FF, 0x00)])
    (after s fun t => (t.a, t.sp, t.p)) = some (0x00, 0xFF, 0x02) := by decide +kernel

/-- Vector K10: `PLA` (R181, R43). -/
theorem test_pla_K10 :
    let s := step ({ State.reset with pc := 0x8000 }.placed [0x68] [(0x0100, 0x99)])
    (after s fun t => (t.a, t.sp, t.p)) = some (0x99, 0x00, 0x80) ∧
      (after s fun t => t.log) = some [.stackWrap .pop] := by decide +kernel

/-- Vector K5: `PHP` (R182). -/
theorem test_php_K5 :
    let s := step ({ State.reset with pc := 0x8000 }.placed [0x08] [])
    (after s fun t => (t.sp, t.p)) = some (0xFE, 0x00) ∧
      byteAfter s 0x01FF = some 0x30 := by decide +kernel

/-- Vector K6: `PHP` (R182). -/
theorem test_php_K6 :
    let s := step ({ State.reset with pc := 0x8000, p := 0xC3 }.placed [0x08] [])
    (after s fun t => (t.sp, t.p)) = some (0xFE, 0xC3) ∧
      byteAfter s 0x01FF = some 0xF3 := by decide +kernel

/-- Vector K7: `PLP` (R183). -/
theorem test_plp_K7 :
    let s := step ({ State.reset with pc := 0x8000, sp := 0xFE }.placed [0x28] [(0x01FF, 0xFF)])
    (after s fun t => (t.sp, t.p)) = some (0xFF, 0xEF) := by decide +kernel

/-- Vector K8: `PLP` (R183). -/
theorem test_plp_K8 :
    let s := step ({ State.reset with pc := 0x8000, p := 0xFF, sp := 0xFE }.placed [0x28] [(0x01FF, 0x00)])
    (after s fun t => (t.sp, t.p)) = some (0xFF, 0x20) := by decide +kernel

/-- Vector K11: `RTI` (R184). -/
theorem test_rti_K11 :
    let s := step ({ State.reset with pc := 0x8000, sp := 0xFC }.placed [0x40] [(0x01FD, 0xDF), (0x01FE, 0x34), (0x01FF, 0x12)])
    (after s fun t => (t.sp, t.pc, t.p)) = some (0xFF, 0x1234, 0xEF) := by decide +kernel

/-- Vector K13: `RTI` (R184, R43). -/
theorem test_rti_K13 :
    let s := step ({ State.reset with pc := 0x8000 }.placed [0x40] [(0x0100, 0x01), (0x0101, 0x03), (0x0102, 0x80)])
    (after s fun t => (t.sp, t.pc, t.p)) = some (0x02, 0x8003, 0x21) ∧
      (after s fun t => t.log) = some [.stackWrap .pop] := by decide +kernel

/-- Vector F1: `CLC` (R185). -/
theorem test_clc_F1 :
    let s := step ({ State.reset with pc := 0x8000, p := 0xFF }.placed [0x18] [])
    (after s fun t => t.p) = some 0xFE := by decide +kernel

/-- Vector F2: `SEC` (R186). -/
theorem test_sec_F2 :
    let s := step ({ State.reset with pc := 0x8000 }.placed [0x38] [])
    (after s fun t => t.p) = some 0x01 := by decide +kernel

/-- Vector F3: `CLD` (R187). -/
theorem test_cld_F3 :
    let s := step ({ State.reset with pc := 0x8000, p := 0xFF }.placed [0xD8] [])
    (after s fun t => t.p) = some 0xF7 := by decide +kernel

/-- Vector F4: `SED` (R188). -/
theorem test_sed_F4 :
    let s := step ({ State.reset with pc := 0x8000 }.placed [0xF8] [])
    (after s fun t => t.p) = some 0x08 := by decide +kernel

/-- Vector F5: `CLI` (R189). -/
theorem test_cli_F5 :
    let s := step ({ State.reset with pc := 0x8000, p := 0xFF }.placed [0x58] [])
    (after s fun t => t.p) = some 0xFB := by decide +kernel

/-- Vector F6: `SEI` (R190). -/
theorem test_sei_F6 :
    let s := step ({ State.reset with pc := 0x8000 }.placed [0x78] [])
    (after s fun t => t.p) = some 0x04 := by decide +kernel

/-- Vector F7: `CLV` (R191). -/
theorem test_clv_F7 :
    let s := step ({ State.reset with pc := 0x8000, p := 0xFF }.placed [0xB8] [])
    (after s fun t => t.p) = some 0xBF := by decide +kernel

/-- Vector F9: `NOP` (R198). -/
theorem test_nop_F9 :
    let s := step ({ State.reset with pc := 0x8000, a := 0x01, x := 0x02, y := 0x03, p := 0xA5, sp := 0x77 }.placed [0xEA] [])
    (after s fun t => (t.a, t.pc, t.p)) = some (0x01, 0x8001, 0xA5) := by decide +kernel

/-- Vector F10: `BRK` (R199). -/
theorem test_brk_F10 :
    let s := step ({ State.reset with pc := 0x8000, a := 0x01, x := 0x02, y := 0x03, p := 0xA5, sp := 0x77 }.placed [0x00] [])
    (after s fun t => (t.pc, t.p)) = some (0x8001, 0xA5) ∧
      (after s fun t => t.run) = some .halted := by decide +kernel

/-- Vector E1: `.byte $02` (R201, R65). -/
theorem test_illegal_E1 :
    let s := step ({ State.reset with pc := 0x8000 }.placed [0x02] [])
    (after s fun t => (t.run, t.log)) = some (.faulted (.illegalOpcode 0x02), []) := by decide +kernel

/-- Vector E4: `.byte $EB` (R201). -/
theorem test_illegal_E4 :
    let s := step ({ State.reset with pc := 0x8000 }.placed [0xEB] [])
    (after s fun t => (t.run, t.log)) = some (.faulted (.illegalOpcode 0xEB), []) := by decide +kernel

/-! ### The 16-bit helpers and the host's operations -/

/-- Vector M10: a 16-bit write whose second byte faults leaves its first byte written (R38, R205 b). -/
theorem test_memWrite16_partial :
    (match memWrite16 State.reset 0x1FFF 0x1234 with
      | .error (k, t) => some (k, t.ram.get 0x7FF)
      | .ok _ => none) = some (.unsupportedRegion 0x2000 .write, 0x34) := by decide +kernel

/-- Vector M11: the second address of a 16-bit read wraps to 0x0000 (R37). -/
theorem test_memRead16_wraps :
    memRead16 (State.reset.placed [] [(0xFFFF, 0x9A), (0x0000, 0xBC)]) 0xFFFF = .ok 0xBC9A := by rfl

/-- Program P7, R225: load, reset, run of `A9 05 00` ends Halted with A = 05 and PC = 8003. -/
theorem test_smallest_program :
    ((loadAndRun none 3 [0xA9, 0x05, 0x00] State.reset).map fun t => (t.a, t.pc, t.run)) =
      some (0x05, 0x8003, .halted) := by decide +kernel

/-- R221's example: the cells a load fills, and the initial state over memories that are not zero (R220). -/
theorem test_initial :
    ((initial ⟨[(0, 0x11)]⟩ ⟨[(0x7FFE, 0x22)]⟩ [0xA9, 0x01, 0x00]).map fun t => (t.ram, t.rom, t.pc)) =
      some (⟨[(0, 0x11)]⟩, ⟨[(0, 0xA9), (1, 0x01), (0x7FFD, 0x80), (0x7FFE, 0x22)]⟩, 0x8000) := by decide +kernel

/-- A hook that writes a RAM cell is called after BRK too, and not after a fault (R224). -/
theorem test_hook_after_brk :
    ((hostRun (some fun _ => [(0x7F, 0xAA)]) 2 (State.reset.placed [0x00] [])).map fun t => t.ram.get 0x7F) = some 0xAA ∧
      ((hostRun (some fun _ => [(0x7F, 0xAA)]) 2 (State.reset.placed [0x02] [])).map fun t => t.ram.get 0x7F) =
        some 0x00 := by decide +kernel

/-! ### Witnesses: states and operands that meet the hypotheses of each statement -/

/-- The start of most witnesses: Running, PC at 0x8000, the instruction bytes there. -/
def start (bytes : List Byte) : State := { State.reset with pc := 0x8000 }.placed bytes []

/-- A next state of which a test holds. -/
theorem exists_next {r : Result} {p : State → Bool} (h : after r p = some true) : ∃ t, r = .next t ∧ p t = true := by
  cases r with
  | next t => exact ⟨t, rfl, Option.some.inj h⟩
  | fault f => cases h
  | refused q => cases h

theorem witness_DecodeOfEncodeIsTheInstruction :
    (Instr.jmpInd 0x02FF).wellFormed = true ∧ (Instr.brk).wellFormed = true := by decide

theorem witness_EncodeOfDecodeIsTheBytes : decode [0xB1, 0x20, 0xEA] = .ok (.ldaIzy 0x20, [0xEA]) := by decide +kernel

theorem witness_OpcodeMapIsABijection :
    decodeByte 0xA9 = some (.LDA, .imm) ∧ opcodeOf .BRK .imp = some 0x00 ∧ Format.izy ∈ formatsOf .SBC := by decide

theorem witness_IllegalOpcodesAreFatal :
    (start [0x02]).run = .running ∧ memRead (start [0x02]) (start [0x02]).pc = .ok 0x02#8 ∧
      (0x02#8 : Byte) ∈ illegalOpcodes ∧ (0xFF#8 : Byte) ∈ illegalOpcodes ∧ decodeByte 0x02 = none := by decide +kernel

theorem witness_StepRunsTheDecodedInstruction :
    (start [0xAD, 0x34, 0x12]).run = .running ∧
      memRead (start [0xAD, 0x34, 0x12]) (start [0xAD, 0x34, 0x12]).pc = .ok 0xAD#8 ∧
      readBytes (start [0xAD, 0x34, 0x12]) ((start [0xAD, 0x34, 0x12]).pc + 1#16) (operandCount 0xAD) =
        .ok [0x34, 0x12] ∧
      decode [0xAD, 0x34, 0x12] = .ok (.ldaAbs 0x1234, []) := by decide +kernel

theorem witness_StepRunsTheEncodedInstruction :
    (start [0x6C, 0xFF, 0x02]).run = .running ∧ (Instr.jmpInd 0x02FF).wellFormed = true ∧
      readBytes (start [0x6C, 0xFF, 0x02]) (start [0x6C, 0xFF, 0x02]).pc (Instr.jmpInd 0x02FF).length =
        .ok (encode (.jmpInd 0x02FF)) := by decide +kernel

/-- Both ends of the PPU window, and an operand byte at its first address. -/
theorem witness_FetchFaultsEndTheStep :
    (start []).run = .running ∧ InPpu 0x2000 ∧ InPpu 0x3FFF ∧
      memRead ({ State.reset with pc := 0x1FFF }.placed [0xA9] []) 0x1FFF = .ok 0xA9#8 ∧
      readBytes ({ State.reset with pc := 0x1FFF }.placed [0xA9] []) (0x1FFF#16 + 1#16) (operandCount 0xA9) =
        .error (.unsupportedRegion 0x2000 .read) := by
  unfold InPpu; decide +kernel

theorem witness_StepHasThreeOutcomes :
    (start []).run = .running ∧ memRead (start []) (start []).pc = .ok 0x00#8 ∧ (start []).halt.run = .halted ∧
      ((start []).raise (.illegalOpcode 0x02)).run = .faulted (.illegalOpcode 0x02) := by decide +kernel

/-- The first and the last address of each region. -/
theorem witness_EveryAddressHasOneRegion :
    (0x0000#16).toNat < 0x2000 ∧ (0x1FFF#16).toNat < 0x2000 ∧ InPpu 0x2000 ∧ InPpu 0x3FFF ∧
      (0x4000 ≤ (0x4000#16).toNat ∧ (0x4000#16).toNat < 0x8000) ∧
      (0x4000 ≤ (0x7FFF#16).toNat ∧ (0x7FFF#16).toNat < 0x8000) ∧ InRom 0x8000 ∧ InRom 0xFFFF := by
  unfold InPpu InRom; decide

/-- No address lies in two regions. -/
theorem witness_regions_are_disjoint :
    ¬ InPpu 0x1FFF ∧ ¬ InPpu 0x4000 ∧ ¬ InRom 0x7FFF ∧ ¬ Writable 0x2000 ∧ ¬ Writable 0x3FFF ∧ ¬ Writable 0x8000 ∧
      Writable 0x1FFF ∧ Writable 0x4000 := by
  unfold InPpu InRom Writable; decide

theorem witness_RamIsMirroredFourTimes :
    (0x7FF : Nat) < 0x0800 ∧ (3 : Nat) < 4 ∧ ¬ ((0x2000#16).toNat < 0x2000 ∧ (0x2000#16).toNat % 0x0800 = 0) := by
  decide

theorem witness_SixteenBitReadIsLittleEndian :
    memRead (start [0x05]) 0x8000 = .ok 0x05#8 ∧ memRead (start [0x05]) (0x8000#16 + 1#16) = .ok 0x00#8 ∧
      memRead (start []) 0x2000 = .error (.unsupportedRegion 0x2000 .read) ∧ memRead (start []) 0x1FFF = .ok 0x00#8 ∧
      memRead (start []) (0x1FFF#16 + 1#16) = .error (.unsupportedRegion 0x2000 .read) ∧
      (0x1FFE#16).toNat < 0x1FFF := by decide +kernel

/-- The four addresses of the stack cell, and an address that is none of them. -/
theorem witness_PushStoresThenDecrements :
    (start []).sp = 0xFF ∧ ((0x01FF#16).toNat < 0x2000 ∧ (0x01FF#16).toNat % 0x0800 = 0x0100 + (0xFF#8).toNat) ∧
      ((0x19FF#16).toNat < 0x2000 ∧ (0x19FF#16).toNat % 0x0800 = 0x0100 + (0xFF#8).toNat) ∧
      ¬ ((0x21FF#16).toNat < 0x2000 ∧ (0x21FF#16).toNat % 0x0800 = 0x0100 + (0xFF#8).toNat) := by decide +kernel

/-- A pointer at the end of a page, one inside a page, and the source's own example in the PPU window. -/
theorem witness_IndirectPointerStaysInItsPage :
    (0x0200#16 = if (0x02FF#16).toNat % 256 = 0xFF then 0x02FF#16 &&& 0xFF00#16 else 0x02FF#16 + 1#16) ∧
      (0x0121#16 = if (0x0120#16).toNat % 256 = 0xFF then 0x0120#16 &&& 0xFF00#16 else 0x0120#16 + 1#16) ∧
      ¬ InPpu 0x02FF ∧ InPpu 0x30FF := by
  unfold InPpu; decide

/-- A load of each register; a source that reads, and one in the PPU window. -/
theorem witness_LoadsWriteTheirRegister :
    ((Instr.ldaImm 0x80).mnemonic, Reg.A) ∈ [(Mnemonic.LDA, Reg.A), (.LDX, .X), (.LDY, .Y)] ∧
      ((Instr.ldxZpy 0xFF).mnemonic, Reg.X) ∈ [(Mnemonic.LDA, Reg.A), (.LDX, .X), (.LDY, .Y)] ∧
      ((Instr.ldyAbs 0x2000).mnemonic, Reg.Y) ∈ [(Mnemonic.LDA, Reg.A), (.LDX, .X), (.LDY, .Y)] ∧
      (Instr.ldaImm 0x80).operand = (Src.imm 0x80).operand ∧
      (Instr.ldyAbs 0x2000).operand = (Src.mem (.abs 0x2000)).operand ∧
      readSrc (start []) (.imm 0x80) = .ok 0x80#8 ∧
      readSrc (start []) (.mem (.abs 0x2000)) = .error (.unsupportedRegion 0x2000 .read) := by decide +kernel

theorem witness_StoresWriteOneByte :
    ((Instr.staAbs 0x4000).mnemonic, Reg.A) ∈ [(Mnemonic.STA, Reg.A), (.STX, .X), (.STY, .Y)] ∧
      ((Instr.stxZpy 0x80).mnemonic, Reg.X) ∈ [(Mnemonic.STA, Reg.A), (.STX, .X), (.STY, .Y)] ∧
      ((Instr.styZpx 0x80).mnemonic, Reg.Y) ∈ [(Mnemonic.STA, Reg.A), (.STX, .X), (.STY, .Y)] ∧
      (Instr.staAbs 0x4000).operand = .memory (.abs 0x4000) ∧ effAddr (start []) (.abs 0x4000) = .ok 0x4000#16 ∧
      Writable 0x4000 ∧ Writable 0x1FFF ∧ InPpu 0x3FFF ∧ InRom 0x8000 := by
  unfold Writable InPpu InRom; decide +kernel

theorem witness_TransfersCopyAndFlag :
    (Instr.tsx, (start []).sp, Reg.X) ∈ [(Instr.tax, (start []).a, Reg.X), (.tay, (start []).a, .Y),
      (.txa, (start []).x, .A), (.tya, (start []).y, .A), (.tsx, (start []).sp, .X)] := by decide +kernel

/-- The source's own example, and the carry-in alone overflowing. -/
theorem witness_AdcAddsWithCarry :
    (Instr.adcImm 0x90).mnemonic = .ADC ∧ (Instr.adcImm 0x90).operand = (Src.imm 0x90).operand ∧
      readSrc (start []) (.imm 0x90) = .ok 0x90#8 ∧
      (Instr.adcAbs 0x3FFF).operand = (Src.mem (.abs 0x3FFF)).operand ∧
      readSrc (start []) (.mem (.abs 0x3FFF)) = .error (.unsupportedRegion 0x3FFF .read) := by decide +kernel

theorem witness_SbcSubtractsWithBorrow :
    (Instr.sbcImm 0x01).mnemonic = .SBC ∧ (Instr.sbcImm 0x01).operand = (Src.imm 0x01).operand ∧
      readSrc (start []) (.imm 0x01) = .ok 0x01#8 ∧
      (Instr.sbcAbx 0x2000).operand = (Src.mem (.abx 0x2000)).operand ∧
      readSrc (start []) (.mem (.abx 0x2000)) = .error (.unsupportedRegion 0x2000 .read) := by decide +kernel

theorem witness_LogicalOpsCombineWithA :
    ((Instr.andImm 0x0F).mnemonic = .AND ∧ (and : Bool → Bool → Bool) = and) ∧
      ((Instr.oraAbs 0x2000).mnemonic = .ORA ∧ (or : Bool → Bool → Bool) = or) ∧
      ((Instr.eorImm 0xFF).mnemonic = .EOR ∧ (xor : Bool → Bool → Bool) = xor) ∧
      (Instr.andImm 0x0F).operand = (Src.imm 0x0F).operand ∧ readSrc (start []) (.imm 0x0F) = .ok 0x0F#8 ∧
      (Instr.oraAbs 0x2000).operand = (Src.mem (.abs 0x2000)).operand ∧
      readSrc (start []) (.mem (.abs 0x2000)) = .error (.unsupportedRegion 0x2000 .read) := by
  refine ⟨⟨rfl, rfl⟩, ⟨rfl, rfl⟩, ⟨rfl, rfl⟩, ?_⟩; decide +kernel

/-- For every state: here the carry shifted out of A by ASL is 0 and the result 0. -/
theorem witness_ShiftsOfTheAccumulator :
    (Instr.aslAcc, 0, false) ∈ [(Instr.aslAcc, 2 * (start []).a.toNat % 256, (start []).a.getLsbD 7),
      (.lsrAcc, (start []).a.toNat / 2, (start []).a.getLsbD 0),
      (.rolAcc, (2 * (start []).a.toNat + ((start []).flag .C).toNat) % 256, (start []).a.getLsbD 7),
      (.rorAcc, (start []).a.toNat / 2 + 128 * ((start []).flag .C).toNat, (start []).a.getLsbD 0)] := by decide

/-- An ASL in RAM, of a ROM cell, and in the PPU window. -/
theorem witness_ShiftsOfMemory :
    (Instr.aslAbs 0x8000).mnemonic ∈ [Mnemonic.ASL, .LSR, .ROL, .ROR] ∧
      (Instr.aslAbs 0x8000).operand = .memory (.abs 0x8000) ∧ effAddr (start [0x0E]) (.abs 0x8000) = .ok 0x8000#16 ∧
      memRead (start [0x0E]) 0x8000 = .ok 0x0E#8 ∧ InRom 0x8000 ∧ Writable 0x0010 ∧ InPpu 0x2000 ∧
      ((Instr.aslAbs 0x8000).mnemonic, (0x1C#8).toNat, false) ∈
        [(Mnemonic.ASL, 2 * (0x0E#8).toNat % 256, (0x0E#8).getLsbD 7), (.LSR, (0x0E#8).toNat / 2, (0x0E#8).getLsbD 0),
          (.ROL, (2 * (0x0E#8).toNat + ((start [0x0E]).flag .C).toNat) % 256, (0x0E#8).getLsbD 7),
          (.ROR, (0x0E#8).toNat / 2 + 128 * ((start [0x0E]).flag .C).toNat, (0x0E#8).getLsbD 0)] := by
  unfold InRom Writable InPpu; decide +kernel

theorem witness_IncAndDecOfMemory :
    (Instr.incAbs 0x9000).mnemonic ∈ [Mnemonic.INC, .DEC] ∧ (Instr.incAbs 0x9000).operand = .memory (.abs 0x9000) ∧
      memRead (start []) 0x9000 = .ok 0x00#8 ∧ InRom 0x9000 ∧ Writable 0x7FFF ∧ InPpu 0x2000 ∧
      ((Instr.incAbs 0x9000).mnemonic, (0x01#8).toNat) ∈
        [(Mnemonic.INC, ((0x00#8).toNat + 1) % 256), (.DEC, ((0x00#8).toNat + 255) % 256)] ∧
      ((Instr.decZp 0x10).mnemonic, (0xFF#8).toNat) ∈
        [(Mnemonic.INC, ((0x00#8).toNat + 1) % 256), (.DEC, ((0x00#8).toNat + 255) % 256)] := by
  unfold InRom Writable InPpu; decide +kernel

theorem witness_RegisterStepsWrap :
    (Instr.dex, Reg.X, 255) ∈ [(Instr.inx, Reg.X, ((start []).x.toNat + 1) % 256),
      (.iny, .Y, ((start []).y.toNat + 1) % 256), (.dex, .X, ((start []).x.toNat + 255) % 256),
      (.dey, .Y, ((start []).y.toNat + 255) % 256)] := by decide

theorem witness_ComparesSetCarryZeroNegative :
    ((Instr.cmpImm 0xFF).mnemonic, Reg.A) ∈ [(Mnemonic.CMP, Reg.A), (.CPX, .X), (.CPY, .Y)] ∧
      (Instr.cmpImm 0xFF).operand = (Src.imm 0xFF).operand ∧ readSrc (start []) (.imm 0xFF) = .ok 0xFF#8 ∧
      ((Instr.cpyAbs 0x2000).mnemonic, Reg.Y) ∈ [(Mnemonic.CMP, Reg.A), (.CPX, .X), (.CPY, .Y)] ∧
      (Instr.cpyAbs 0x2000).operand = (Src.mem (.abs 0x2000)).operand ∧
      readSrc (start []) (.mem (.abs 0x2000)) = .error (.unsupportedRegion 0x2000 .read) := by decide +kernel

theorem witness_BitTestsMemoryAgainstA :
    (Instr.bitAbs 0x4020).mnemonic = .BIT ∧ (Instr.bitAbs 0x4020).operand = (Src.mem (.abs 0x4020)).operand ∧
      readSrc (start []) (.mem (.abs 0x4020)) = .ok 0x00#8 ∧
      readSrc (start []) (.mem (.abs 0x2000)) = .error (.unsupportedRegion 0x2000 .read) := by decide +kernel

/-- A branch taken and a branch not taken, in the state with all flags clear. -/
theorem witness_BranchesTestOneFlag :
    (Instr.bne 0x80, Flag.Z, false) ∈ [(Instr.bcc 0x80, Flag.C, false), (.bcs 0x80, .C, true), (.beq 0x80, .Z, true),
      (.bne 0x80, .Z, false), (.bmi 0x80, .N, true), (.bpl 0x80, .N, false), (.bvc 0x80, .V, false),
      (.bvs 0x80, .V, true)] ∧ (start []).flag .Z = false ∧ ¬ (start []).flag .C = true := by decide

theorem witness_JumpsSetPcOnly :
    (Instr.jmpAbs 0x2000).mnemonic = .JMP ∧ (Instr.jmpAbs 0x2000).operand = .memory (.abs 0x2000) ∧
      effAddr (start []) (.abs 0x2000) = .ok 0x2000#16 ∧ (Instr.jmpInd 0x02FF).operand = .memory (.ind 0x02FF) ∧
      effAddr (start []) (.ind 0x02FF) = .ok 0x0000#16 ∧
      effAddr (start []) (.ind 0x30FF) = .error (.unsupportedRegion 0x30FF .read) := by decide +kernel

theorem witness_PhaAndPhpPushOneByte :
    (Instr.pha = .pha ∧ (start []).a = (start []).a) ∧
      (Instr.php = .php ∧ ∀ f : Flag, flagOf 0x30 f = (f == .B || f == .B2 || (start []).flag f)) := by
  refine ⟨⟨rfl, rfl⟩, rfl, fun f => ?_⟩; cases f <;> rfl

theorem witness_PlpRestoresTheStatus : Flag.C ≠ .B ∧ Flag.C ≠ .B2 ∧ Flag.N ≠ .B ∧ Flag.N ≠ .B2 := by decide

theorem witness_FlagInstructionsWriteOneFlag :
    (Instr.clv, Flag.V, false) ∈ [(Instr.clc, Flag.C, false), (.sec, .C, true), (.cld, .D, false), (.sed, .D, true),
      (.cli, .I, false), (.sei, .I, true), (.clv, .V, false)] := by decide

theorem witness_NopChangesOnlyPc :
    (start [0xEA]).run = .running ∧ memRead (start [0xEA]) (start [0xEA]).pc = .ok 0xEA#8 := by decide +kernel

theorem witness_BrkOnlyHalts :
    (start []).run = .running ∧ memRead (start []) (start []).pc = .ok 0x00#8 := by decide +kernel

/-- A state with listed cells, and the step it takes. -/
theorem witness_StepKeepsTheInvariant :
    (start [0x48]).Inv ∧ ∃ t, step (start [0x48]) = .next t := by
  unfold State.Inv State.MemoriesWf State.BreakClear
  exact ⟨⟨by decide +kernel, fun _ => by decide +kernel⟩, step_next (by decide +kernel)⟩

theorem witness_ResetMeetsTheInvariant : (start [0x48]).MemoriesWf := by
  unfold State.MemoriesWf; decide +kernel

theorem witness_NoStepWritesRom :
    (∃ t, step (start [0x8D, 0x00, 0x80]) = .next t) ∧ 0x8000 ≤ (0x8000#16).toNat := 
  ⟨step_next (by decide +kernel), by decide⟩

/-- RTI of 0xCF from a status with B set changes all eight flags. -/
theorem witness_OnlyListedInstructionsWriteAFlag :
    (after (exec .rti ({ State.reset with p := 0x10 }.placed [] [(0x0100, 0xCF)])) fun t =>
      [Flag.C, .Z, .N, .V, .I, .D, .B, .B2].map fun f => t.flag f) =
      some [true, true, true, true, true, true, false, true] ∧
    ([Flag.C, .Z, .N, .V, .I, .D, .B, .B2].map fun f => ({ State.reset with p := 0x10 } : State).flag f) =
      [false, false, false, false, false, false, true, false] ∧
    (after (exec .rti ({ State.reset with p := 0x10 }.placed [] [(0x0100, 0xCF)])) fun t => t.run) = some .running := by
  decide +kernel

theorem witness_OnlyListedInstructionsWriteARegister :
    (after (exec .txa { State.reset with x := 0x01 }) fun t => (t.a, t.run)) = some (0x01, .running) ∧
      (after (exec .tsx State.reset) fun t => (t.x, t.run)) = some (0xFF, .running) ∧
      (after (exec .dey State.reset) fun t => (t.y, t.run)) = some (0xFF, .running) ∧
      (after (exec .txs State.reset) fun t => (t.sp, t.run)) = some (0x00, .running) := by decide +kernel

theorem witness_OnlyListedInstructionsWriteMemory :
    byteAfter (exec .pha { State.reset with a := 0x42, sp := 0x00 }) 0x0900 = some 0x42 ∧
      (after (exec .pha { State.reset with a := 0x42, sp := 0x00 }) fun t => t.log) = some [.stackWrap .push] := by
  decide +kernel

theorem witness_PcAdvancesByTheLength :
    (start [0x7D, 0x34, 0x12]).run = .running ∧ (Instr.adcAbx 0x1234).wellFormed = true ∧
      readBytes (start [0x7D, 0x34, 0x12]) (start [0x7D, 0x34, 0x12]).pc (Instr.adcAbx 0x1234).length =
        .ok (encode (.adcAbx 0x1234)) ∧
      (Instr.adcAbx 0x1234).mnemonic ∉ [Mnemonic.BCC, .BCS, .BEQ, .BNE, .BMI, .BPL, .BVC, .BVS, .JMP, .JSR, .RTS, .RTI] ∧
      ∃ t, step (start [0x7D, 0x34, 0x12]) = .next t ∧ decide (t.run = .running) = true := by
  refine ⟨?_, ?_, ?_, ?_, exists_next (p := fun t => decide (t.run = .running)) ?_⟩ <;> decide +kernel

/-- A step that faults by each of the three kinds. -/
theorem witness_ExecutionFaultsAreClean :
    (∃ t, step (start [0x02]) = .next t ∧ decide (t.run = .faulted (.illegalOpcode 0x02)) = true) ∧
      (∃ t, step (start [0x8D, 0xFF, 0x3F]) = .next t ∧ decide (t.run = .faulted (.unsupportedRegion 0x3FFF .write)) = true) ∧
      (∃ t, step (start [0x8D, 0x00, 0x80]) = .next t ∧ decide (t.run = .faulted (.romWriteViolation 0x8000 0x00)) = true) := by
  refine ⟨exists_next (p := fun t => decide (t.run = .faulted (.illegalOpcode 0x02))) ?_,
    exists_next (p := fun t => decide (t.run = .faulted (.unsupportedRegion 0x3FFF .write))) ?_,
    exists_next (p := fun t => decide (t.run = .faulted (.romWriteViolation 0x8000 0x00))) ?_⟩ <;> decide +kernel

theorem witness_IdleFlagsDoNotSteerExecution :
    Flag.D ∈ [Flag.I, .D, .B, .B2] ∧
      (Instr.adcImm 0x09).mnemonic ∉ [Mnemonic.PHP, .PLP, .RTI, .CLD, .SED, .CLI, .SEI] ∧
      (∃ t, exec (.adcImm 0x09) (start []) = .next t ∧ decide (t.run = .running) = true) ∧
      (∃ t, exec (.ldaAbs 0x2000) (start []) = .next t ∧
        decide (t.run = .faulted (.unsupportedRegion 0x2000 .read)) = true) := by
  refine ⟨by decide, by decide, exists_next (p := fun t => decide (t.run = .running)) ?_,
    exists_next (p := fun t => decide (t.run = .faulted (.unsupportedRegion 0x2000 .read))) ?_⟩ <;> decide +kernel

/-- The longest image, and one byte more; an address outside the image and the vector. -/
theorem witness_LoadFillsRomAndTheVector :
    (List.replicate 0x7FFC (0xEA#8 : Byte)).length ≤ 0x7FFC ∧ 0x7FFC < (List.replicate 0x7FFD (0xEA#8 : Byte)).length ∧
      (¬ (0x8000 ≤ (0xFFFE#16).toNat ∧ (0xFFFE#16).toNat < 0x8000 + 0x7FFC)) ∧ 0xFFFE#16 ≠ 0xFFFC#16 ∧
      0xFFFE#16 ≠ 0xFFFD#16 := by
  refine ⟨by rw [List.length_replicate], by rw [List.length_replicate]; decide, ?_⟩; decide

/-- An image of three bytes and its last byte, and an image one byte too long. -/
theorem witness_LoadThenResetStartsTheImage :
    [(0xA9#8 : Byte), 0x05, 0x00].length ≤ 0x7FFC ∧ 2 < [(0xA9#8 : Byte), 0x05, 0x00].length ∧
      0x7FFC < (List.replicate 0x7FFD (0xEA#8 : Byte)).length :=
  ⟨by decide, by decide, by rw [List.length_replicate]; decide⟩

theorem witness_RunEndsHaltedOrFaulted :
    (∃ t, hostRun none 1 (start []) = some t) ∧ (start []).halt.run ≠ .running ∧ (start []).run = .running ∧
      ∃ t, step (start []) = .next t := ⟨⟨_, rfl⟩, by decide +kernel, by decide +kernel, step_next (by decide +kernel)⟩

/-- A hook that writes the last RAM cell twice. -/
def twiceHook : Hook := fun _ => [(0x7FF, 0x11), (0x7FF, 0xAA)]

/-- The last cell, by its first and its last address in the window; the first address after the window; a cell not written. -/
theorem witness_TheHookWritesRamOnly :
    0x2000 ≤ (0x2000#16).toNat ∧ ((start []).raise (.illegalOpcode 0x02)).run = .faulted (.illegalOpcode 0x02) ∧
      (none : Option Hook).isNone = true ∧ (start []).run = .running ∧ (start []).halt.run = .halted ∧
      twiceHook (start []) = [(0x7FF, 0x11)] ++ (0x7FF, 0xAA) :: [] ∧
      (0x1FFF#16).toNat < 0x2000 ∧ (0x1FFF#16).toNat % 0x0800 = (0x7FF#11).toNat ∧
      (0x07FF#16).toNat % 0x0800 = (0x7FF#11).toNat ∧
      ∀ w ∈ twiceHook (start []), w.1.toNat ≠ (0x0800#16).toNat % 0x0800 :=
  ⟨by decide, by decide +kernel, rfl, by decide +kernel, by decide +kernel, rfl, by decide, by decide, by decide, by
    simp [twiceHook]⟩

/-- Both outcomes of an effective address: a mode that reads no pointer, and a pointer in the PPU window. -/
theorem witness_IndexedAddressesWrap :
    effAddr (start []) (.abs 0x8000) = .ok 0x8000 ∧
      effAddr (start []) (.ind 0x3FFF) = .error (.unsupportedRegion 0x3FFF .read) := by decide +kernel

/-- Two bytes at the top of the address space and at its bottom; a fault at the second byte; a documented and an undocumented
opcode. -/
theorem witness_FetchReadsAscendingAddresses :
    readBytes (start []) 0xFFFF 2 = .ok [0x00, 0x00] ∧
      readBytes (start []) 0x1FFF 2 = .error (.unsupportedRegion 0x2000 .read) ∧
      memRead (start []) (0x1FFF#16 + 0#16) = .ok 0x00#8 ∧
      memRead (start []) (0x1FFF#16 + 1#16) = .error (.unsupportedRegion 0x2000 .read) ∧
      decodeByte 0xAD = some (.LDA, .abs) ∧ decodeByte 0x02 = none := by decide +kernel


end Sys2Proof.Machine
end

-- Scope (`00_scope.md`): the outcomes of one step.
section
/-!
PROOF. What an instruction does to the run state, the opcode byte that halts, and the outcomes of one step (R7).
-/

namespace Sys2Proof.Machine

/-! ### The run state after an instruction -/

/-- A completed write leaves the run state (R41). -/
theorem memWrite_run {s t : State} {a : Word} {v : Byte} (h : memWrite s a v = .ok t) : t.run = s.run := by
  obtain ⟨-, -, -, -, -, -, hrun, -⟩ := memWrite_frame h
  exact hrun

theorem SrcEffect.run_eq {i : Instr} {f : Byte → State} {s t : State} (h : SrcEffect i f s t)
    (hf : ∀ v, (f v).run = s.run) : t.run = s.run := by
  obtain ⟨_, v, -, -, rfl⟩ := h
  exact hf v

theorem StoreEffect.run_eq {i : Instr} {v : Byte} {s t : State} (h : StoreEffect i v s t) : t.run = s.run := by
  obtain ⟨_, _, u, -, -, hw, rfl⟩ := h
  exact (State.advance_run u _).trans (memWrite_run hw)

theorem ModifyEffect.run_eq {i : Instr} {f : Byte → Byte} {g : Byte → State → State} {s t : State}
    (h : ModifyEffect i f g s t) (hg : ∀ v u, (g v u).run = u.run) : t.run = s.run := by
  obtain ⟨_, _, v, u, -, -, -, hw, rfl⟩ := h
  exact (hg v u).trans (memWrite_run hw)

theorem ShiftEffect.run_eq {i : Instr} {k : ShiftKind} {s t : State} (h : ShiftEffect i k s t) :
    t.run = s.run := by
  rcases h with ⟨-, rfl⟩ | h
  · simp
  · exact h.run_eq fun v u => by simp

theorem BranchEffect.run_eq {i : Instr} {cond : Bool} {s t : State} (h : BranchEffect i cond s t) :
    t.run = s.run := by
  obtain ⟨_, -, rfl⟩ := h
  rfl

/-- A completed instruction other than BRK leaves the run state. -/
theorem Effect.run_eq {i : Instr} {s t : State} (h : Effect i s t) (hb : i.mnemonic ≠ .BRK) : t.run = s.run := by
  unfold Effect at h
  cases hm : i.mnemonic <;> simp only [hm] at h
  case BRK => exact absurd hm hb
  case LDA | LDX | LDY | ADC | SBC | AND | ORA | EOR | CMP | CPX | CPY | BIT => exact h.run_eq fun v => by simp
  case STA | STX | STY => exact h.run_eq
  case ASL | LSR | ROL | ROR => exact h.run_eq
  case INC | DEC => exact h.run_eq fun v u => by simp
  case BCC | BCS | BEQ | BNE | BMI | BPL | BVC | BVS => exact h.run_eq
  case JMP => obtain ⟨_, target, -, -, rfl⟩ := h; rfl
  case JSR => obtain ⟨target, -, rfl⟩ := h; rfl
  case TAX | TAY | TXA | TYA | TSX | TXS | INX | INY | DEX | DEY | RTS | PHA | PLA | PHP | PLP | RTI | CLC | SEC |
    CLD | SED | CLI | SEI | CLV | NOP => subst h; simp

/-- Only BRK takes a Running state to a Halted one. -/
theorem exec_halted_mnemonic {i : Instr} {s t : State} (hr : s.run = .running) (h : exec i s = .next t)
    (ht : t.run = .halted) : i.mnemonic = .BRK := by
  by_contra hb
  rcases exec_effect h with ⟨k, rfl, -⟩ | he
  · cases ht
  · cases hr.symm.trans ((he.run_eq hb).symm.trans ht)

/-! ### The opcode byte of BRK -/

/-- 0x00 is the one byte the opcode map gives to BRK (R64). -/
theorem decodeByte_brk {b : Byte} {f : Format} (h : decodeByte b = some (.BRK, f)) : b = 0x00#8 := by
  have key : ∀ b : Byte, (decodeByte b).map Prod.fst = some .BRK → b = 0x00#8 := by decide +kernel
  exact key b (by rw [h]; rfl)

/-- A fetch that runs on into BRK read the byte 0x00 at PC. -/
theorem memRead_of_fetchInstr_brk {s u : State} {i : Instr} (h : fetchInstr s = .ok (i, u))
    (hi : i.mnemonic = .BRK) : memRead s s.pc = .ok 0x00#8 := by
  obtain ⟨b, operands, rest, hb, -, hd, -⟩ := fetchInstr_ok h
  obtain ⟨hm, -, -⟩ := decode_ok hd
  rw [hi] at hm
  rw [hb, decodeByte_brk hm]

/-- The byte 0x00 at PC is fetched as BRK, which has no operand byte to read. -/
theorem fetchInstr_of_memRead_zero {s : State} (h : memRead s s.pc = .ok 0x00#8) :
    fetchInstr s = .ok (.brk, s.advance 1) := by
  unfold fetchInstr
  rw [h]
  rfl

/-! ### The step -/

/-- A step from Running that reads 0x00 at PC halts, with PC after that byte (R7). -/
theorem step_of_memRead_zero {s : State} (hr : s.run = .running) (h : memRead s s.pc = .ok 0x00#8) :
    step s = .next (s.advance 1).halt := by
  unfold step
  rw [hr, fetchInstr_of_memRead_zero h]
  rfl

/-- A step that ends Halted read 0x00 at PC: a fault ends Faulted, and of the instructions only BRK halts. -/
theorem memRead_zero_of_step_halted {s t : State} (hr : s.run = .running) (h : step s = .next t)
    (ht : t.run = .halted) : memRead s s.pc = .ok 0x00#8 := by
  rcases step_cases hr h with ⟨i, hf, he⟩ | ⟨k, rfl⟩ | ⟨k, rfl⟩
  · exact memRead_of_fetchInstr_brk hf (exec_halted_mnemonic (s := s.advance 1) hr he ht)
  · cases ht
  · cases ht

/-- A step from Running ends Halted exactly when the byte at PC is 0x00 (R7). -/
theorem step_halted_iff {s t : State} (hr : s.run = .running) (h : step s = .next t) :
    t.run = .halted ↔ memRead s s.pc = .ok 0x00#8 := by
  refine ⟨memRead_zero_of_step_halted hr h, fun hz => ?_⟩
  rw [step_of_memRead_zero hr hz] at h
  cases h
  rfl

theorem step_of_halted {s : State} (hr : s.run = .halted) : step s = .fault .noStepHalted := by
  unfold step
  rw [hr]

theorem step_of_faulted {s : State} {k : FaultKind} (hr : s.run = .faulted k) :
    step s = .fault (.noStepFaulted k) := by
  unfold step
  rw [hr]

/-- A run state is one of the three of R15. -/
theorem RunState.cases_eq (r : RunState) : r = .running ∨ r = .halted ∨ ∃ k, r = .faulted k := by
  cases r with
  | running => exact .inl rfl
  | halted => exact .inr (.inl rfl)
  | faulted k => exact .inr (.inr ⟨k, rfl⟩)

/-- Settles O9: a step from Running has a next state, Halted exactly when 0x00 was read at PC, since of the
instructions only BRK changes the run state and a fault sets it to Faulted; from Halted and Faulted no step exists. -/
theorem stepHasThreeOutcomes : Obligations.StepHasThreeOutcomes := by
  intro s
  refine ⟨fun hr => ?_, step_of_halted, fun k => step_of_faulted⟩
  obtain ⟨t, ht⟩ := step_next hr
  exact ⟨t, ht, t.run.cases_eq, step_halted_iff hr ht⟩

end Sys2Proof.Machine
end

-- State (`10_state.md`): what each instruction leaves of flags, registers, PC and memories, and the invariant.
section
/-!
PROOF. The writers of each flag, register and of SP (R10, R12, R14), the net advance of PC (R13), and the invariant
of the state: canonical memories and a live Break flag that is clear (R17, R20). Everything follows from
`exec_effect` by the case split on the mnemonic.
-/

namespace Sys2Proof

/-! ### An encoded instruction is decoded again (R60 to R64) -/

/-- The law of `Laws.EncodedOpcode`, for every instruction. -/
theorem encodedOpcode (i : Instr) : Laws.EncodedOpcode.Statement i := by
  cases i <;> exact ⟨_, rfl, rfl, rfl⟩

/-- The instruction read from an opcode byte and operand bytes that encode it. -/
theorem decode_opcode_operandBytes {i : Instr} {b : Byte} (hd : decodeByte b = some (i.mnemonic, i.format))
    (ha : assemble i.mnemonic i.operand = some i) : decode (b :: i.operand.bytes) = .ok (i, []) := by
  have ht : takeOperand i.format i.operand.bytes = some (i.operand, []) := by
    simpa [Instr.format] using takeOperand_bytes i.operand []
  simp only [decode, hd, ht, ha]

/-- The format of an instruction is one its mnemonic has (R63). -/
theorem Instr.format_mem_formatsOf (i : Instr) : i.format ∈ formatsOf i.mnemonic := by
  cases i <;> exact of_decide_eq_true rfl

/-- A mnemonic whose one format is Implied has no operand byte (R61). -/
theorem Instr.operandLength_of_implied {i : Instr} (h : formatsOf i.mnemonic = [.imp]) :
    i.format.operandLength = 0 := by
  have hf := i.format_mem_formatsOf
  rw [h, List.mem_singleton] at hf
  rw [hf]
  rfl

/-- The instructions on the accumulator are the four shifts (R130). -/
theorem Instr.mem_shifts_of_accumulator {i : Instr} (h : i.operand = .accumulator) :
    i ∈ [Instr.aslAcc, .lsrAcc, .rolAcc, .rorAcc] := by
  cases i
  case aslAcc | lsrAcc | rolAcc | rorAcc => decide
  all_goals cases h

end Sys2Proof

namespace Sys2Proof.Machine

/-! ### What the accesses of an instruction preserve -/

/-- A relation between an earlier and a later state that composes, and that setting PC and a completed write satisfy:
then a completed instruction satisfies it as soon as its own update of registers and flags does. -/
structure AccessPreserved (R : State → State → Prop) : Prop where
  trans : ∀ {s u t : State}, R s u → R u t → R s t
  setPc : ∀ (s : State) (w : Word), R s (s.setPc w)
  write : ∀ {s t : State} {a : Word} {v : Byte}, memWrite s a v = .ok t → R s t

section
variable {R : State → State → Prop} {i : Instr} {s t u : State}

theorem AccessPreserved.advance (hR : AccessPreserved R) (h : R s u) (n : Nat) : R s (u.advance n) :=
  hR.trans h (hR.setPc u (u.pc + BitVec.ofNat 16 n))

theorem SrcEffect.preserves {f : Byte → State} (h : SrcEffect i f s t) (hR : AccessPreserved R)
    (hf : ∀ v, R s (f v)) : R s t := by
  obtain ⟨_, v, -, -, rfl⟩ := h
  exact hR.advance (hf v) _

theorem StoreEffect.preserves {v : Byte} (h : StoreEffect i v s t) (hR : AccessPreserved R) : R s t := by
  obtain ⟨_, _, _, -, -, hw, rfl⟩ := h
  exact hR.advance (hR.write hw) _

theorem ModifyEffect.preserves {f : Byte → Byte} {g : Byte → State → State} (h : ModifyEffect i f g s t)
    (hR : AccessPreserved R) (hg : ∀ v u, R u (g v u)) : R s t := by
  obtain ⟨_, _, v, u, -, -, -, hw, rfl⟩ := h
  exact hR.advance (hR.trans (hR.write hw) (hg v u)) _

/-- A shift keeps what its flags keep, and on the accumulator what the change of A keeps. -/
theorem ShiftEffect.preserves {k : ShiftKind} (h : ShiftEffect i k s t) (hR : AccessPreserved R)
    (hA : i.operand = .accumulator → ∀ v, R s (s.setReg .A v)) (hF : ∀ v r u, R u (u.shiftFlags k v r)) :
    R s t := by
  rcases h with ⟨ho, rfl⟩ | h
  · exact hR.trans (hA ho _) (hF _ _ _)
  · exact h.preserves hR fun v u => hF _ _ u

theorem BranchEffect.preserves {cond : Bool} (h : BranchEffect i cond s t) (hR : AccessPreserved R) : R s t := by
  obtain ⟨_, -, rfl⟩ := h
  exact hR.setPc s _

end

theorem flag_preserved (f : Flag) : AccessPreserved fun s t => t.flag f = s.flag f where
  trans h h' := h'.trans h
  setPc _ _ := rfl
  write h := memWrite_flag h f

theorem reg_preserved (q : Reg) : AccessPreserved fun s t => t.reg q = s.reg q where
  trans h h' := h'.trans h
  setPc s w := State.setPc_reg s w q
  write h := memWrite_reg h q

/-- A completed write leaves SP (R41). -/
theorem memWrite_sp {s t : State} {a : Word} {v : Byte} (h : memWrite s a v = .ok t) : t.sp = s.sp := by
  obtain ⟨-, -, -, -, -, hsp, -, -⟩ := memWrite_frame h
  exact hsp

/-- A completed write leaves PC (R41). -/
theorem memWrite_pc {s t : State} {a : Word} {v : Byte} (h : memWrite s a v = .ok t) : t.pc = s.pc := by
  obtain ⟨-, -, -, -, hpc, -, -, -⟩ := memWrite_frame h
  exact hpc

theorem sp_preserved : AccessPreserved fun s t => t.sp = s.sp where
  trans h h' := h'.trans h
  setPc _ _ := rfl
  write := memWrite_sp

theorem memoriesWf_preserved : AccessPreserved fun s t => s.MemoriesWf → t.MemoriesWf where
  trans h h' := h' ∘ h
  setPc _ _ h := h
  write := memWrite_wf

/-- An instruction that did not fault completed with the effect of its rule. -/
theorem effect_of_not_faulted {i : Instr} {s t : State} (h : exec i s = .next t) (hn : ∀ k, t.run ≠ .faulted k) :
    Effect i s t := by
  rcases exec_effect h with ⟨k, rfl, -⟩ | he
  · exact absurd rfl (hn k)
  · exact he

/-! ### The writers of each flag (R12) -/

/-- The instructions that may write a flag: the columns of the table of R12. -/
def Flag.writers : Flag → List Mnemonic
  | .C => [.ADC, .SBC, .ASL, .ROL, .LSR, .ROR, .CMP, .CPX, .CPY, .CLC, .SEC, .PLP, .RTI]
  | .Z | .N => [.LDA, .LDX, .LDY, .TAX, .TAY, .TXA, .TYA, .TSX, .PLA, .ADC, .SBC, .AND, .ORA, .EOR, .ASL, .LSR, .ROL,
      .ROR, .INC, .DEC, .INX, .INY, .DEX, .DEY, .CMP, .CPX, .CPY, .BIT, .PLP, .RTI]
  | .V => [.ADC, .SBC, .BIT, .CLV, .PLP, .RTI]
  | .I => [.CLI, .SEI, .PLP, .RTI]
  | .D => [.CLD, .SED, .PLP, .RTI]
  | .B | .B2 => [.PLP, .RTI]

/-- A flag that `m` does not write is none that it writes. -/
theorem Flag.ne_of_notMem_writers {m : Mnemonic} {f : Flag} (h : m ∉ f.writers) (g : Flag) (hg : m ∈ g.writers) :
    f ≠ g := by
  rintro rfl
  exact h hg

/-- PLP and RTI write every flag (R183, R184). -/
theorem Flag.pull_mem_writers (f : Flag) : Mnemonic.PLP ∈ f.writers ∧ Mnemonic.RTI ∈ f.writers := by
  cases f <;> decide

/-- A completed instruction leaves every flag it is not listed for (R12). -/
theorem Effect.flag_eq {i : Instr} {s t : State} (h : Effect i s t) {f : Flag} (hf : i.mnemonic ∉ f.writers) :
    t.flag f = s.flag f := by
  have hR := flag_preserved f
  have ne := Flag.ne_of_notMem_writers hf
  unfold Effect at h
  cases hm : i.mnemonic <;> simp only [hm] at h hf ne
  case LDA | LDX | LDY | AND | ORA | EOR =>
    exact h.preserves hR fun v => by simp [ne .Z (by decide), ne .N (by decide)]
  case ADC | SBC =>
    exact h.preserves hR fun v => by
      simp [ne .C (by decide), ne .Z (by decide), ne .V (by decide), ne .N (by decide)]
  case CMP | CPX | CPY =>
    exact h.preserves hR fun v => by simp [ne .C (by decide), ne .Z (by decide), ne .N (by decide)]
  case BIT =>
    exact h.preserves hR fun v => by simp [ne .Z (by decide), ne .V (by decide), ne .N (by decide)]
  case STA | STX | STY => exact h.preserves hR
  case ASL | LSR | ROL | ROR =>
    exact h.preserves hR (fun _ v => State.setReg_flag s .A v f)
      fun v r u => by simp [ne .C (by decide), ne .Z (by decide), ne .N (by decide)]
  case INC | DEC =>
    exact h.preserves hR fun v u => by simp [ne .Z (by decide), ne .N (by decide)]
  case BCC | BCS | BEQ | BNE | BMI | BPL | BVC | BVS => exact h.preserves hR
  case TAX | TAY | TXA | TYA | TSX | INX | INY | DEX | DEY | PLA =>
    subst h; simp [ne .Z (by decide), ne .N (by decide)]
  case CLC | SEC => subst h; simp [ne .C (by decide)]
  case CLD | SED => subst h; simp [ne .D (by decide)]
  case CLI | SEI => subst h; simp [ne .I (by decide)]
  case CLV => subst h; simp [ne .V (by decide)]
  case PLP => exact absurd f.pull_mem_writers.1 hf
  case RTI => exact absurd f.pull_mem_writers.2 hf
  case JMP => obtain ⟨_, _, -, -, rfl⟩ := h; rfl
  case JSR => obtain ⟨_, -, rfl⟩ := h; rfl
  case TXS | RTS | PHA | PHP | NOP | BRK => subst h; rfl

/-- A flag that a completed instruction changed lists it as a writer. -/
theorem Effect.mem_flagWriters {i : Instr} {s t : State} (h : Effect i s t) (f : Flag) (hc : t.flag f ≠ s.flag f) :
    i.mnemonic ∈ f.writers := by
  by_contra hf
  exact hc (h.flag_eq hf)

/-- The status PLP and RTI restore has Break 0 (R183). -/
theorem flagOf_pulledStatus_B (b : Byte) : flagOf (pulledStatus b) .B = false := by
  revert b; decide

/-- The status PLP and RTI restore has Break2 1 (R183). -/
theorem flagOf_pulledStatus_B2 (b : Byte) : flagOf (pulledStatus b) .B2 = true := by
  revert b; decide

/-- PLP and RTI leave Break 0 and Break2 1 (R20, R183, R184). -/
theorem Effect.breakFlags_of_pull {i : Instr} {s t : State} (h : Effect i s t) (hi : i.mnemonic ∈ [.PLP, .RTI]) :
    t.flag .B = false ∧ t.flag .B2 = true := by
  have hb := flagOf_pulledStatus_B (topByte s)
  have hb2 := flagOf_pulledStatus_B2 (topByte s)
  unfold Effect at h
  simp only [List.mem_cons, List.not_mem_nil, or_false] at hi
  rcases hi with hm | hm <;> simp only [hm] at h <;> subst h <;> exact ⟨hb, hb2⟩

/-- Settles O47: a completed instruction leaves every flag whose column of R12 does not list it, and the two
writers of B and B2 write them 0 and 1. -/
theorem onlyListedInstructionsWriteAFlag : Obligations.OnlyListedInstructionsWriteAFlag := by
  intro i s t h hn
  have he := effect_of_not_faulted h hn
  exact ⟨he.mem_flagWriters .C, he.mem_flagWriters .Z, he.mem_flagWriters .N, he.mem_flagWriters .V,
    he.mem_flagWriters .I, he.mem_flagWriters .D,
    fun hc => ⟨he.mem_flagWriters .B hc, (he.breakFlags_of_pull (he.mem_flagWriters .B hc)).1⟩,
    fun hc => ⟨he.mem_flagWriters .B2 hc, (he.breakFlags_of_pull (he.mem_flagWriters .B2 hc)).2⟩⟩

/-! ### The writers of each register (R10) and of SP (R14) -/

/-- The instructions that may write a general register (R10), but for the shifts of the accumulator, which share
their mnemonics with the shifts of memory. -/
def Reg.writers : Reg → List Mnemonic
  | .A => [.LDA, .TXA, .TYA, .PLA, .ADC, .SBC, .AND, .ORA, .EOR]
  | .X => [.LDX, .TAX, .TSX, .INX, .DEX]
  | .Y => [.LDY, .TAY, .INY, .DEY]

/-- The instructions that may write SP (R14). -/
def spWriters : List Mnemonic := [.PHA, .PHP, .JSR, .PLA, .PLP, .RTS, .RTI, .TXS]

/-- A register that `m` does not write is none that it writes. -/
theorem Reg.ne_of_notMem_writers {m : Mnemonic} {q : Reg} (h : m ∉ q.writers) (r : Reg) (hr : m ∈ r.writers) :
    q ≠ r := by
  rintro rfl
  exact h hr

/-- A completed instruction leaves every register it is not listed for (R10). -/
theorem Effect.reg_eq {i : Instr} {s t : State} (h : Effect i s t) {q : Reg} (hq : i.mnemonic ∉ q.writers)
    (hacc : i.operand = .accumulator → q ≠ .A) : t.reg q = s.reg q := by
  have hR := reg_preserved q
  have ne := Reg.ne_of_notMem_writers hq
  unfold Effect at h
  cases hm : i.mnemonic <;> simp only [hm] at h ne
  case LDA | ADC | SBC | AND | ORA | EOR => exact h.preserves hR fun v => by simp [ne .A (by decide)]
  case LDX => exact h.preserves hR fun v => by simp [ne .X (by decide)]
  case LDY => exact h.preserves hR fun v => by simp [ne .Y (by decide)]
  case CMP | CPX | CPY | BIT => exact h.preserves hR fun v => by simp
  case STA | STX | STY => exact h.preserves hR
  case ASL | LSR | ROL | ROR =>
    exact h.preserves hR (fun ho v => by simp [hacc ho]) fun v r u => State.shiftFlags_reg u _ v r q
  case INC | DEC => exact h.preserves hR fun v u => State.setZN_reg u _ q
  case BCC | BCS | BEQ | BNE | BMI | BPL | BVC | BVS => exact h.preserves hR
  case TXA | TYA | PLA => subst h; simp [ne .A (by decide)]
  case TAX | TSX | INX | DEX => subst h; simp [ne .X (by decide)]
  case TAY | INY | DEY => subst h; simp [ne .Y (by decide)]
  case JMP => obtain ⟨_, _, -, -, rfl⟩ := h; simp
  case JSR => obtain ⟨_, -, rfl⟩ := h; simp
  case TXS | RTS | PHA | PHP | PLP | RTI | CLC | SEC | CLD | SED | CLI | SEI | CLV | NOP | BRK => subst h; simp

/-- A completed instruction that is not listed for SP leaves it (R14). -/
theorem Effect.sp_eq {i : Instr} {s t : State} (h : Effect i s t) (hi : i.mnemonic ∉ spWriters) : t.sp = s.sp := by
  have hR := sp_preserved
  unfold Effect at h
  cases hm : i.mnemonic <;> simp only [hm] at h hi
  case LDA | LDX | LDY | ADC | SBC | AND | ORA | EOR | CMP | CPX | CPY | BIT =>
    exact h.preserves hR fun v => by simp
  case STA | STX | STY => exact h.preserves hR
  case ASL | LSR | ROL | ROR => exact h.preserves hR (fun _ v => State.setReg_sp s .A v) fun v r u => rfl
  case INC | DEC => exact h.preserves hR fun v u => rfl
  case BCC | BCS | BEQ | BNE | BMI | BPL | BVC | BVS => exact h.preserves hR
  case JMP => obtain ⟨_, _, -, -, rfl⟩ := h; rfl
  case PHA | PHP | JSR | PLA | PLP | RTS | RTI | TXS => exact absurd (by decide) hi
  case TAX | TAY | TXA | TYA | TSX | INX | INY | DEX | DEY | CLC | SEC | CLD | SED | CLI | SEI | CLV | NOP | BRK =>
    subst h; rfl

/-- A register that a completed instruction changed lists it as a writer, or is A and the operand. -/
theorem Effect.mem_regWriters {i : Instr} {s t : State} (h : Effect i s t) (q : Reg) (hc : t.reg q ≠ s.reg q) :
    i.mnemonic ∈ q.writers ∨ q = .A ∧ i.operand = .accumulator := by
  by_contra hw
  obtain ⟨hm, ho⟩ := not_or.1 hw
  exact hc (h.reg_eq hm fun hacc hq => ho ⟨hq, hacc⟩)

/-- An instruction that completed and changed SP is a listed writer of it. -/
theorem Effect.mem_spWriters {i : Instr} {s t : State} (h : Effect i s t) (hc : t.sp ≠ s.sp) :
    i.mnemonic ∈ spWriters := by
  by_contra hm
  exact hc (h.sp_eq hm)

/-- Settles O48: a completed instruction leaves every register, and SP, of which it is no listed writer; A is
changed besides by the shifts whose operand is the accumulator. -/
theorem onlyListedInstructionsWriteARegister : Obligations.OnlyListedInstructionsWriteARegister := by
  intro i s t h hn
  have he := effect_of_not_faulted h hn
  refine ⟨fun hc => ?_, fun hc => ?_, fun hc => ?_, he.mem_spWriters⟩
  · exact (he.mem_regWriters .A hc).imp_right fun ⟨_, ho⟩ => Instr.mem_shifts_of_accumulator ho
  · exact (he.mem_regWriters .X hc).resolve_right fun ⟨hq, _⟩ => absurd hq (by decide)
  · exact (he.mem_regWriters .Y hc).resolve_right fun ⟨hq, _⟩ => absurd hq (by decide)

/-! ### The advance of PC (R13, R81) -/

/-- The instructions that overwrite PC: branches, jump, call and returns (R13). -/
def pcWriters : List Mnemonic := [.BCC, .BCS, .BEQ, .BNE, .BMI, .BPL, .BVC, .BVS, .JMP, .JSR, .RTS, .RTI]

section
variable {i : Instr} {s t : State}

theorem SrcEffect.pc_eq {f : Byte → State} (h : SrcEffect i f s t) (hf : ∀ v, (f v).pc = s.pc) :
    t.pc = s.pc + BitVec.ofNat 16 i.format.operandLength := by
  obtain ⟨_, v, -, -, rfl⟩ := h
  rw [State.advance_pc, hf]

theorem StoreEffect.pc_eq {v : Byte} (h : StoreEffect i v s t) :
    t.pc = s.pc + BitVec.ofNat 16 i.format.operandLength := by
  obtain ⟨_, _, _, -, -, hw, rfl⟩ := h
  rw [State.advance_pc, memWrite_pc hw]

theorem ModifyEffect.pc_eq {f : Byte → Byte} {g : Byte → State → State} (h : ModifyEffect i f g s t)
    (hg : ∀ v u, (g v u).pc = u.pc) : t.pc = s.pc + BitVec.ofNat 16 i.format.operandLength := by
  obtain ⟨_, _, _, _, -, -, -, hw, rfl⟩ := h
  rw [State.advance_pc, hg, memWrite_pc hw]

theorem ShiftEffect.pc_eq {k : ShiftKind} (h : ShiftEffect i k s t) :
    t.pc = s.pc + BitVec.ofNat 16 i.format.operandLength := by
  rcases h with ⟨ho, rfl⟩ | h
  · simp [Instr.format, ho, Operand.format, Format.operandLength]
  · exact h.pc_eq fun v u => rfl

/-- A completed instruction that does not overwrite PC moves it past its operand bytes (R81). -/
theorem Effect.pc_eq (h : Effect i s t) (hi : i.mnemonic ∉ pcWriters) :
    t.pc = s.pc + BitVec.ofNat 16 i.format.operandLength := by
  have h0 := Instr.operandLength_of_implied (i := i)
  unfold Effect at h
  cases hm : i.mnemonic <;> simp only [hm] at h hi h0
  case LDA | LDX | LDY | ADC | SBC | AND | ORA | EOR | CMP | CPX | CPY | BIT => exact h.pc_eq fun v => by simp
  case STA | STX | STY => exact h.pc_eq
  case ASL | LSR | ROL | ROR => exact h.pc_eq
  case INC | DEC => exact h.pc_eq fun v u => rfl
  case BCC | BCS | BEQ | BNE | BMI | BPL | BVC | BVS | JMP | JSR | RTS | RTI => exact absurd (by decide) hi
  case TAX | TAY | TXA | TYA | TSX | TXS | INX | INY | DEX | DEY | PHA | PLA | PHP | PLP | CLC | SEC | CLD | SED |
    CLI | SEI | CLV | NOP | BRK =>
    subst h; simp [h0 rfl]

end

/-- A byte read before others that were read. -/
theorem readBytes_succ_ok {s : State} {addr : Word} {n : Nat} {b : Byte} {rest : List Byte}
    (h : readBytes s addr (n + 1) = .ok (b :: rest)) :
    memRead s addr = .ok b ∧ readBytes s (addr + 1#16) n = .ok rest := by
  obtain ⟨b', hb, h⟩ := except_bind_ok h
  obtain ⟨rest', hr, h⟩ := except_bind_ok h
  cases h
  exact ⟨hb, hr⟩

/-- Where the bytes at PC encode an instruction, the fetch gives that instruction (R80). -/
theorem fetchInstr_of_encode {s : State} {i : Instr} (h : readBytes s s.pc i.length = .ok (encode i)) :
    fetchInstr s = .ok (i, s.advance 1) := by
  obtain ⟨b, he, hd, ha⟩ := encodedOpcode i
  rw [he, Instr.length, Nat.add_comm] at h
  obtain ⟨hb, hr⟩ := readBytes_succ_ok h
  have hc : operandCount b = i.format.operandLength := by simp only [operandCount, hd]
  have hr' : readBytes (s.advance 1) (s.advance 1).pc (operandCount b) = .ok i.operand.bytes := by
    rw [hc, ← hr]
    exact readBytes_congr (by rfl) (by rfl) _ _
  unfold fetchInstr
  simp only [hb, hr', decode_opcode_operandBytes hd ha]

/-- A step from Running runs the instruction it fetched (R80). -/
theorem step_of_fetchInstr {s u : State} {i : Instr} (hr : s.run = .running) (h : fetchInstr s = .ok (i, u)) :
    step s = exec i u := by
  unfold step
  rw [hr, h]

/-- Settles O50: the fetch moves PC past the opcode byte, and the completed instruction past its operand bytes. -/
theorem pcAdvancesByTheLength : Obligations.PcAdvancesByTheLength := by
  intro s t i hr _ hb hi h hn
  rw [step_of_fetchInstr hr (fetchInstr_of_encode hb)] at h
  rw [(effect_of_not_faulted h hn).pc_eq hi, Instr.length, BitVec.ofNat_add, ← BitVec.add_assoc]
  rfl

/-! ### The invariant (R17, R20) -/

theorem memoriesWf_of_eq {s t : State} (hr : t.ram = s.ram) (ho : t.rom = s.rom) (h : s.MemoriesWf) :
    t.MemoriesWf := by
  unfold State.MemoriesWf
  rw [hr, ho]
  exact h

/-- A completed instruction keeps both memories canonical: it writes RAM by the arbiter or by a push. -/
theorem Effect.memoriesWf {i : Instr} {s t : State} (h : Effect i s t) (hw : s.MemoriesWf) : t.MemoriesWf := by
  have hR := memoriesWf_preserved
  unfold Effect at h
  cases hm : i.mnemonic <;> simp only [hm] at h
  case LDA | LDX | LDY | ADC | SBC | AND | ORA | EOR | CMP | CPX | CPY | BIT =>
    exact h.preserves hR (fun v => memoriesWf_of_eq (by simp) (by simp)) hw
  case STA | STX | STY => exact h.preserves hR hw
  case ASL | LSR | ROL | ROR => exact h.preserves hR (fun _ v hs => hs) (fun v r u hu => hu) hw
  case INC | DEC => exact h.preserves hR (fun v u hu => hu) hw
  case BCC | BCS | BEQ | BNE | BMI | BPL | BVC | BVS => exact h.preserves hR hw
  case JMP => obtain ⟨_, _, -, -, rfl⟩ := h; exact hw
  case JSR => obtain ⟨_, -, rfl⟩ := h; exact pushed_wf _ (pushed_wf _ hw)
  case PHA | PHP => subst h; exact pushed_wf _ hw
  case TAX | TAY | TXA | TYA | TSX | TXS | INX | INY | DEX | DEY | RTS | PLA | PLP | RTI | CLC | SEC | CLD | SED |
    CLI | SEI | CLV | NOP | BRK =>
    subst h; exact hw

/-- A completed instruction keeps the live Break flag clear: of its two writers each writes it 0 (R20). -/
theorem Effect.breakClear {i : Instr} {s t : State} (h : Effect i s t) (hb : s.BreakClear) : t.BreakClear := by
  by_cases hc : t.flag .B = s.flag .B
  · exact hc.trans hb
  · exact (h.breakFlags_of_pull (h.mem_flagWriters .B hc)).1

/-- A fault entry keeps the invariant, which says nothing of the flags of a Faulted state (R205). -/
theorem inv_raise {s : State} (k : FaultKind) (h : s.MemoriesWf) : (s.raise k).Inv :=
  ⟨h, fun hn => absurd ⟨k, rfl⟩ hn⟩

/-- Every instruction keeps canonical memories and a clear Break flag, the latter unless it faults. -/
theorem exec_inv {i : Instr} {s t : State} (h : exec i s = .next t) (hw : s.MemoriesWf) (hb : s.BreakClear) :
    t.Inv := by
  rcases exec_effect h with ⟨k, rfl, -⟩ | he
  · exact inv_raise k hw
  · exact ⟨he.memoriesWf hw, fun _ => he.breakClear hb⟩

/-- Settles O44: a step begins Running, so with Break clear; the instruction it runs keeps the invariant, and so
does a fault of the fetch. -/
theorem stepKeepsTheInvariant : Obligations.StepKeepsTheInvariant := by
  rintro s t ⟨hw, hb⟩ h
  have hr := step_running h
  have hb : s.BreakClear := hb fun ⟨k, hk⟩ => by rw [hr] at hk; cases hk
  rcases step_cases hr h with ⟨i, -, he⟩ | ⟨k, rfl⟩ | ⟨k, rfl⟩
  · exact exec_inv (s := s.advance 1) he hw hb
  · exact inv_raise k hw
  · exact inv_raise (s := s.advance 1) k hw

/-- A status register with every flag clear has Break clear (R19). -/
theorem breakClear_of_pReset {s : State} (h : s.p = Config.pReset) : s.BreakClear := by
  unfold State.BreakClear State.flag
  rw [h]
  rfl

/-- Settles O45: the reset state lists no cell, the host's reset changes neither memory, and both clear P. -/
theorem resetMeetsTheInvariant : Obligations.ResetMeetsTheInvariant :=
  ⟨⟨⟨Memory.empty_wf _, Memory.empty_wf _⟩, fun _ => breakClear_of_pReset rfl⟩,
    fun _ hw => ⟨hw, fun _ => breakClear_of_pReset rfl⟩⟩

end Sys2Proof.Machine
end

-- Memory (`20_memory.md`): the arbiter's regions and mirrors, the 16-bit helpers, the stack, and ROM.
section
/-!
PROOF. The memory arbiter by region (R32 to R36), the 16-bit helpers (R37, R38), the stack primitives (R42 to R44),
and that no step writes ROM (R36, R49).
-/

namespace Sys2Proof.Machine

/-! ### The regions (R32) -/

/-- A completed write changes no ROM cell (R36). -/
theorem memWrite_rom_eq {s t : State} {a : Word} {v : Byte} (h : memWrite s a v = .ok t) : t.rom = s.rom := by
  obtain ⟨-, -, -, -, -, -, -, hrom⟩ := memWrite_frame h
  exact hrom

/-- A completed write stores its byte and does nothing else (R41). -/
theorem storesOnly_of_memWrite {s t : State} {a : Word} {v : Byte} (h : memWrite s a v = .ok t) :
    StoresOnly a v [] 0 s t :=
  ⟨byteStored_of_memWrite h, fun q _ => memWrite_reg h q, fun f _ => memWrite_flag h f, memWrite_sp h, memWrite_run h,
    (memWrite_pc h).trans (BitVec.add_zero _).symm⟩

/-- A write to a writable address completes, stores its byte, and leaves ROM. -/
theorem memWrite_stores {a : Word} (h : Writable a) (s : State) (v : Byte) :
    ∃ t, memWrite s a v = .ok t ∧ StoresOnly a v [] 0 s t ∧ t.rom = s.rom := by
  obtain ⟨t, hw⟩ := memWrite_of_writable h s v
  exact ⟨t, hw, storesOnly_of_memWrite hw, memWrite_rom_eq hw⟩

/-- Settles O10: each region has its law for reads and for writes, and of the two writable ones a write stores its
byte and nothing else. -/
theorem everyAddressHasOneRegion : Obligations.EveryAddressHasOneRegion := by
  intro s addr v
  exact ⟨fun hram => ⟨memRead_ram hram s, memWrite_stores (.inl hram) s v⟩,
    fun hppu => ⟨memRead_ppu hppu s, memWrite_ppu hppu s v⟩,
    fun hign => ⟨memRead_ignored hign s, memWrite_stores (.inr hign) s v⟩,
    fun hrom => ⟨memRead_rom hrom s, memWrite_rom hrom s v⟩⟩

/-! ### The four images of RAM (R33) -/

section
variable {c k : Nat}

/-- The address of cell `c` in RAM image `k`. -/
theorem ramImage_toNat (hc : c < 0x0800) (hk : k < 4) : (BitVec.ofNat 16 (c + 0x0800 * k)).toNat = c + 0x0800 * k :=
  (BitVec.toNat_ofNat _ _).trans (Nat.mod_eq_of_lt (by omega))

/-- The aliases of cell `c`, by whichever image it is named: the addresses of the RAM window that leave `c` modulo
the RAM size. -/
theorem aliases_ramImage_iff (hc : c < 0x0800) (hk : k < 4) (addr : Word) :
    Aliases addr (BitVec.ofNat 16 (c + 0x0800 * k)) ↔ addr.toNat < 0x2000 ∧ addr.toNat % 0x0800 = c := by
  unfold Aliases
  rw [ramImage_toNat hc hk]
  omega

end

/-- Settles O11: all four images of a cell are aliases of the address written, and a RAM write changes what the
aliases read as and nothing else. -/
theorem ramIsMirroredFourTimes : Obligations.RamIsMirroredFourTimes := by
  intro s c j v hc hj
  have hram : (BitVec.ofNat 16 (c + 0x0800 * j)).toNat < 0x2000 := by
    rw [ramImage_toNat hc hj]
    omega
  obtain ⟨t, hw⟩ := memWrite_of_writable (.inl hram) s v
  obtain ⟨hsame, hother, hlog⟩ := (byteStored_of_memWrite hw).1 hram
  refine ⟨t, hw, fun k hk => hsame _ ?_, fun addr hn => hother addr ?_, fun q _ => memWrite_reg hw q,
    fun f _ => memWrite_flag hw f, memWrite_sp hw, memWrite_pc hw, memWrite_run hw, hlog⟩
  · rw [aliases_ramImage_iff hc hj, ramImage_toNat hc hk]
    omega
  · rwa [aliases_ramImage_iff hc hj]

/-! ### The 16-bit helpers (R37, R38) -/

section
variable {s : State} {addr : Word}

theorem memRead16_of_reads {lo hi : Byte} (hlo : memRead s addr = .ok lo) (hhi : memRead s (addr + 1#16) = .ok hi) :
    memRead16 s addr = .ok (join16 hi lo) := by
  unfold memRead16
  rw [hlo, ok_bind, hhi]
  rfl

theorem memRead16_of_low_fault {k : FaultKind} (hlo : memRead s addr = .error k) : memRead16 s addr = .error k := by
  unfold memRead16
  rw [hlo, error_bind]

theorem memRead16_of_high_fault {lo : Byte} {k : FaultKind} (hlo : memRead s addr = .ok lo)
    (hhi : memRead s (addr + 1#16) = .error k) : memRead16 s addr = .error k := by
  unfold memRead16
  rw [hlo, ok_bind, hhi, error_bind]

theorem memWrite16_of_writes {w : Word} {t u : State} (hlo : memWrite s addr (lo8 w) = .ok t)
    (hhi : memWrite t (addr + 1#16) (hi8 w) = .ok u) : memWrite16 s addr w = .ok u := by
  simp only [memWrite16, hlo, hhi]

/-- Below the last address of the RAM window the next address lies in the window and names another cell, so the
second byte of a 16-bit write does not overwrite the first. -/
theorem memRead16_memWrite16 (h : addr.toNat < 0x1FFF) (w : Word) :
    ∃ t, memWrite16 s addr w = .ok t ∧ memRead16 t addr = .ok w := by
  have hnext : (addr + 1#16).toNat = addr.toNat + 1 := by bv_omega
  have hloRam : addr.toNat < 0x2000 := by omega
  have hhiRam : (addr + 1#16).toNat < 0x2000 := by omega
  have hne : ¬ Aliases addr (addr + 1#16) := by
    rintro ⟨-, -, he⟩
    omega
  obtain ⟨t, hlo⟩ := memWrite_of_writable (.inl hloRam) s (lo8 w)
  obtain ⟨u, hhi⟩ := memWrite_of_writable (.inl hhiRam) t (hi8 w)
  obtain ⟨hloRead, -, -⟩ := (byteStored_of_memWrite hlo).1 hloRam
  obtain ⟨hhiRead, hother, -⟩ := (byteStored_of_memWrite hhi).1 hhiRam
  have hreadLo : memRead u addr = .ok (lo8 w) := (hother addr hne).trans (hloRead addr ⟨hloRam, hloRam, rfl⟩)
  have hreadHi : memRead u (addr + 1#16) = .ok (hi8 w) := hhiRead _ ⟨hhiRam, hhiRam, rfl⟩
  refine ⟨u, memWrite16_of_writes hlo hhi, ?_⟩
  rw [memRead16_of_reads hreadLo hreadHi, join16_hi8_lo8]

end

/-- Settles O12: the three ways the two byte reads can go, and the round trip in RAM. -/
theorem sixteenBitReadIsLittleEndian : Obligations.SixteenBitReadIsLittleEndian := by
  intro s addr
  exact ⟨fun lo hi hlo hhi => ⟨join16 hi lo, memRead16_of_reads hlo hhi, join16_toNat hi lo⟩,
    fun _ => memRead16_of_low_fault, fun _ _ => memRead16_of_high_fault, fun w h => memRead16_memWrite16 h w⟩

/-! ### The stack (R42 to R44) -/

/-- The address SP designates, as a number (R42). -/
theorem stackAddr_eq_ofNat (sp : Byte) : stackAddr sp = BitVec.ofNat 16 (0x0100 + sp.toNat) :=
  BitVec.eq_of_toNat_eq (by
    have := sp.isLt
    rw [stackAddr_toNat, BitVec.toNat_ofNat, Nat.mod_eq_of_lt (by omega)])

/-- The stack page is read through the RAM window. -/
theorem memRead_stackAddr (s : State) (sp : Byte) :
    memRead s (stackAddr sp) = .ok (s.ram.get (0x0100 + sp.toNat)) := by
  rw [memRead_ram (stackAddr_ram sp), stackAddr_cell]

/-- A push logs a wrap exactly from SP 0x00 (R42). -/
theorem pushed_log_eq (s : State) (v : Byte) :
    (pushed s v).log = s.log ++ (if s.sp.toNat = 0 then [.stackWrap .push] else []) := by
  simp [pushed, ← BitVec.toNat_inj]

/-- A pop logs a wrap exactly from SP 0xFF (R43). -/
theorem popped_log_eq (s : State) :
    (popped s).log = s.log ++ (if s.sp.toNat = 255 then [.stackWrap .pop] else []) := by
  simp [popped, ← BitVec.toNat_inj]

/-- Settles O13: the push completes as `pushed`, whose fields are known one by one. -/
theorem pushStoresThenDecrements : Obligations.PushStoresThenDecrements := by
  intro s v
  refine ⟨pushed s v, push8_eq s v, fun addr h => ?_, fun addr h => ?_, ?_, pushed_log_eq s v,
    fun q _ => pushed_reg s v q, fun f _ => pushed_flag s v f, pushed_pc s v, pushed_run s v⟩
  · rw [pushed_read, if_pos h]
  · rw [pushed_read, if_neg h]
  · rw [pushed_sp, BitVec.toNat_sub, Nat.add_comm]
    rfl

/-- Settles O14: the pop completes as `popped` with the byte at the incremented SP, and touches no memory. -/
theorem popIncrementsThenReads : Obligations.PopIncrementsThenReads := by
  intro s
  have hsp : (s.sp + 1#8).toNat = (s.sp.toNat + 1) % 256 := BitVec.toNat_add s.sp 1#8
  refine ⟨topByte s, popped s, pop8_eq s, ?_, hsp, popped_log_eq s, sameMemory_of_eq (popped_ram s) (popped_rom s),
    fun q _ => popped_reg s q, fun f _ => popped_flag s f, popped_pc s, popped_run s⟩
  rw [← hsp, ← stackAddr_eq_ofNat]
  exact memRead_stackAddr s _

/-- The byte pushed last is on top (R42, R43). -/
theorem topByte_pushed (s : State) (v : Byte) : topByte (pushed s v) = v := by
  simp [topByte]

/-- Two decrements of SP are undone by two increments, wraps included (R44). -/
theorem sp_sub_add_two (sp : Byte) : sp - 1#8 - 1#8 + 1#8 + 1#8 = sp := by bv_omega

/-- Decrementing SP moves it to another cell of the stack page, the wrap included (R42). -/
theorem sp_sub_one_toNat_ne (sp : Byte) : (sp - 1#8).toNat ≠ sp.toNat := by bv_omega

/-- Under the byte pushed last lies the one pushed before it: the two SP values differ, so their cells do (R44). -/
theorem topByte_popped_pushed_pushed (s : State) (v w : Byte) : topByte (popped (pushed (pushed s v) w)) = v := by
  have hne : 0x0100 + (s.sp - 1#8).toNat ≠ 0x0100 + s.sp.toNat := by
    have := sp_sub_one_toNat_ne s.sp
    omega
  simp only [topByte, popped_ram, popped_sp, pushed_ram, pushed_sp, sp_sub_add_two, Memory.get_set, if_neg hne, if_true]

/-- A word pushed and popped again (R44). -/
theorem pop16_pushed_pushed (s : State) (w : Word) :
    pop16 (pushed (pushed s (hi8 w)) (lo8 w)) = .ok (w, popped (popped (pushed (pushed s (hi8 w)) (lo8 w)))) := by
  rw [pop16_eq, topByte_popped_pushed_pushed, topByte_pushed, join16_hi8_lo8]

/-- Settles O15: the word is pushed by two byte pushes and popped by two byte pops, each pair with one wrap at most. -/
theorem popWordInvertsPushWord : Obligations.PopWordInvertsPushWord := by
  intro s w
  have hne := sp_sub_one_toNat_ne s.sp
  refine ⟨_, _, push16_eq s w, pop16_pushed_pushed s w, sp_sub2 s.sp, sp_sub_add_two s.sp, push2_log s _ _, pop2_log _,
    ?_, ?_⟩
  · rw [← stackAddr_eq_ofNat, pushed_pushed_read, if_pos ⟨stackAddr_ram _, stackAddr_cell _⟩]
  · rw [← stackAddr_eq_ofNat, pushed_pushed_read, stackAddr_cell, if_neg (by omega), if_pos ⟨stackAddr_ram _, rfl⟩]

/-! ### No step writes ROM (R36, R49) -/

theorem rom_preserved : AccessPreserved fun s t => t.rom = s.rom where
  trans h h' := h'.trans h
  setPc _ _ := rfl
  write := memWrite_rom_eq

/-- A completed instruction leaves ROM: it writes memory only by the arbiter or by a push. -/
theorem Effect.rom_eq {i : Instr} {s t : State} (h : Effect i s t) : t.rom = s.rom := by
  have hR := rom_preserved
  unfold Effect at h
  cases hm : i.mnemonic <;> simp only [hm] at h
  case LDA | LDX | LDY | ADC | SBC | AND | ORA | EOR | CMP | CPX | CPY | BIT =>
    exact h.preserves hR fun v => by simp
  case STA | STX | STY => exact h.preserves hR
  case ASL | LSR | ROL | ROR => exact h.preserves hR (fun _ v => State.setReg_rom s .A v) fun v r u => rfl
  case INC | DEC => exact h.preserves hR fun v u => rfl
  case BCC | BCS | BEQ | BNE | BMI | BPL | BVC | BVS => exact h.preserves hR
  case JMP => obtain ⟨_, _, -, -, rfl⟩ := h; rfl
  case JSR => obtain ⟨_, -, rfl⟩ := h; rfl
  case TAX | TAY | TXA | TYA | TSX | TXS | INX | INY | DEX | DEY | RTS | PHA | PLA | PHP | PLP | RTI | CLC | SEC | CLD |
    SED | CLI | SEI | CLV | NOP | BRK =>
    subst h; rfl

/-- A fault leaves memory, so with `Effect.rom_eq` every instruction leaves ROM (R204). -/
theorem exec_rom_eq {i : Instr} {s t : State} (h : exec i s = .next t) : t.rom = s.rom := by
  rcases exec_effect h with ⟨k, rfl, -⟩ | he
  · rfl
  · exact he.rom_eq

theorem step_rom_eq {s t : State} (h : step s = .next t) : t.rom = s.rom := by
  rcases step_cases (step_running h) h with ⟨i, -, he⟩ | ⟨k, rfl⟩ | ⟨k, rfl⟩
  · exact exec_rom_eq (s := s.advance 1) he
  · rfl
  · rfl

/-- Settles O46: neither an instruction nor a fault of the fetch changes ROM, and a read from 0x8000 up sees ROM
alone. -/
theorem noStepWritesRom : Obligations.NoStepWritesRom := by
  intro s t h
  have hrom := step_rom_eq h
  refine ⟨hrom, fun addr ha => ?_⟩
  rw [memRead_rom ha, memRead_rom ha, hrom]

end Sys2Proof.Machine
end

-- Encoding (`30_encoding.md`): the opcode map, decode and encode, and the bytes a fetch reads.
section
/-!
PROOF. The two tables of the opcode map are one bijection (R63, R64), decode and encode invert each other (R60, R62),
the illegal bytes are fatal (R65), and a fetch reads ascending addresses up to the first that faults (R96).
-/

namespace Sys2Proof

/-! ### The opcode map (R63, R64) -/

/-- Every entry of the table by byte is an entry of the table by mnemonic. -/
theorem opcodeOf_of_decodeByte {b : Byte} {m : Mnemonic} {f : Format} (h : decodeByte b = some (m, f)) :
    opcodeOf m f = some b := by
  have table : ∀ b : Byte, ∀ p ∈ decodeByte b, opcodeOf p.1 p.2 = some b := by decide +kernel
  exact table b (m, f) h

/-- Every entry of the table by mnemonic is an entry of the table by byte. -/
theorem decodeByte_of_mem_opcodesOf (m : Mnemonic) : ∀ p ∈ opcodesOf m, decodeByte p.2 = some (m, p.1) := by
  cases m <;> decide

/-- The table by mnemonic lists exactly the formats its mnemonic has. -/
theorem opcodesOf_formats (m : Mnemonic) : (opcodesOf m).map Prod.fst = formatsOf m := by
  cases m <;> rfl

/-- The two tables state the same assignments (R64). -/
theorem decodeByte_eq_some_iff {b : Byte} {m : Mnemonic} {f : Format} :
    decodeByte b = some (m, f) ↔ opcodeOf m f = some b := by
  refine ⟨opcodeOf_of_decodeByte, fun h => ?_⟩
  obtain ⟨before, after, hl, -⟩ := List.lookup_eq_some_iff.mp h
  exact decodeByte_of_mem_opcodesOf m (f, b) (by simp [hl])

/-- A pair has a byte exactly when the mnemonic has the format (R63). -/
theorem mem_formatsOf_iff {m : Mnemonic} {f : Format} : f ∈ formatsOf m ↔ ∃ b, decodeByte b = some (m, f) := by
  calc f ∈ formatsOf m
    _ ↔ (opcodeOf m f).isSome = true := by
      simp [← opcodesOf_formats, opcodeOf, List.lookup_isSome_iff]
    _ ↔ ∃ b, decodeByte b = some (m, f) := by
      simp only [Option.isSome_iff_exists, decodeByte_eq_some_iff]

theorem legalOpcodes_count : ((List.range 256).countP fun n => (decodeByte (BitVec.ofNat 8 n)).isSome) = 151 := by
  decide +kernel

/-! ### Decode and encode -/

/-- The bytes of an instruction whose opcode byte is known. -/
theorem encode_of_decodeByte {b : Byte} {i : Instr} (h : decodeByte b = some (i.mnemonic, i.format)) :
    encode i = b :: i.operand.bytes := by
  simp only [encode, opcodeOf_of_decodeByte h]

/-- The opcode byte gives the mnemonic and the format back, and the format takes exactly its operand bytes. -/
theorem decode_encode_append (i : Instr) (rest : List Byte) : decode (encode i ++ rest) = .ok (i, rest) := by
  obtain ⟨b, he, hd, ha⟩ := encodedOpcode i
  have ht : takeOperand i.format (i.operand.bytes ++ rest) = some (i.operand, rest) :=
    takeOperand_bytes i.operand rest
  simp only [he, List.cons_append, decode, hd, ht, ha]

theorem decode_encode (i : Instr) : decode (encode i) = .ok (i, []) := by
  simpa using decode_encode_append i []

theorem encode_length (i : Instr) : (encode i).length = i.length := by
  obtain ⟨b, he, -, -⟩ := encodedOpcode i
  rw [he, List.length_cons, Operand.bytes_length, Nat.add_comm]
  rfl

/-- Bytes that decode are the encoding of the instruction and what is left over: no two bytes have one pair, and the
operand's bytes stood after the opcode byte. -/
theorem eq_encode_append_of_decode {bytes rest : List Byte} {i : Instr} (h : decode bytes = .ok (i, rest)) :
    bytes = encode i ++ rest := by
  cases bytes with
  | nil => cases h
  | cons b operands =>
    obtain ⟨hd, ht, -⟩ := decode_ok h
    obtain ⟨-, rfl⟩ := takeOperand_some ht
    rw [encode_of_decodeByte hd, List.cons_append]

/-- Every value of `Instr` is well formed: it has a constructor for the existing pairs only (R63). -/
theorem Instr.wellFormed_eq_true (i : Instr) : i.wellFormed = true :=
  List.contains_iff_mem.mpr i.format_mem_formatsOf

/-- Settles O1: decoding reads back the opcode byte and the operand, whatever follows. -/
theorem decodeOfEncodeIsTheInstruction : Obligations.DecodeOfEncodeIsTheInstruction :=
  fun i rest _ => ⟨decode_encode_append i rest, encode_length i⟩

/-- Settles O2: a decoded byte is the one its pair is encoded as, since the two tables are one bijection. -/
theorem encodeOfDecodeIsTheBytes : Obligations.EncodeOfDecodeIsTheBytes :=
  fun _ i _ h => ⟨eq_encode_append_of_decode h, i.wellFormed_eq_true⟩

/-- Settles O3: the count, and the two tables compared entry by entry in both directions. -/
theorem opcodeMapIsABijection : Obligations.OpcodeMapIsABijection :=
  ⟨legalOpcodes_count, fun _ _ _ => decodeByte_eq_some_iff, fun _ _ => mem_formatsOf_iff⟩

/-- Settles O5: each word is the encoding of the instruction it stands for, so it decodes to it. -/
theorem sampleWordsDecode : Obligations.SampleWordsDecode :=
  ⟨decode_encode (.ldaImm 0x10), decode_encode (.stxZpy 0x10), decode_encode (.adcAbx 0x1234), decode_encode .rorAcc,
    decode_encode (.bitZp 0x10), decode_encode (.bne 0xF8), decode_encode (.jmpInd 0x02FF),
    decode_encode (.staIzx 0x20), decode_encode .rti, decode_encode .brk⟩

end Sys2Proof

namespace Sys2Proof.Machine

/-! ### Operand counts and illegal bytes (R60, R65, R201) -/

theorem operandCount_of_legal {b : Byte} {m : Mnemonic} {f : Format} (h : decodeByte b = some (m, f)) :
    operandCount b = f.operandLength := by
  simp only [operandCount, h]

theorem operandCount_of_illegal {b : Byte} (h : decodeByte b = none) : operandCount b = 0 := by
  simp only [operandCount, h]

/-- The bytes outside the opcode map are those R65 lists. -/
theorem decodeByte_eq_none_iff (b : Byte) : decodeByte b = none ↔ b ∈ illegalOpcodes := by
  revert b; decide +kernel

/-- An illegal byte ends the fetch with its fault, PC past the byte and no operand byte read (R201). -/
theorem fetchInstr_of_illegal {s : State} {b : Byte} (hb : memRead s s.pc = .ok b) (hd : decodeByte b = none) :
    fetchInstr s = .error ((s.advance 1).raise (.illegalOpcode b)) := by
  simp only [fetchInstr, hb, operandCount_of_illegal hd, readBytes, decode, hd]

/-- An illegal byte at PC faults the step, which changes neither memory nor log (R65, R205). -/
theorem step_faults_of_illegal {s : State} {b : Byte} (hr : s.run = .running) (hb : memRead s s.pc = .ok b)
    (hd : decodeByte b = none) : FaultsWith (.illegalOpcode b) s (step s) := by
  have hs : step s = .next ((s.advance 1).raise (.illegalOpcode b)) := by
    simp only [step, hr, fetchInstr_of_illegal hb hd]
  rw [hs]
  exact ⟨_, rfl, rfl, sameMemory_of_eq rfl rfl, rfl⟩

/-- Settles O4: the list against the opcode map byte by byte, and the fetch that meets an illegal byte. -/
theorem illegalOpcodesAreFatal : Obligations.IllegalOpcodesAreFatal :=
  ⟨decodeByte_eq_none_iff, fun _ b hr hb hi => step_faults_of_illegal hr hb ((decodeByte_eq_none_iff b).mpr hi)⟩

/-! ### The bytes a fetch reads (R62, R96) -/

section
variable {s : State} {addr : Word} {n : Nat}

/-- The addresses after `addr` count from its successor. -/
theorem addr_succ_add (addr : Word) (k : Nat) : addr + 1#16 + BitVec.ofNat 16 k = addr + BitVec.ofNat 16 (k + 1) := by
  rw [BitVec.add_assoc, Nat.add_comm k 1, BitVec.ofNat_add]

theorem readBytes_succ_cons_iff {b : Byte} {rest : List Byte} :
    readBytes s addr (n + 1) = .ok (b :: rest) ↔ memRead s addr = .ok b ∧ readBytes s (addr + 1#16) n = .ok rest := by
  refine ⟨readBytes_succ_ok, ?_⟩
  rintro ⟨hb, hr⟩
  simp only [readBytes, hb, hr, ok_bind]
  rfl

theorem readBytes_succ_ne_nil : readBytes s addr (n + 1) ≠ .ok [] := by
  intro h
  obtain ⟨b, -, h⟩ := except_bind_ok h
  obtain ⟨rest, -, h⟩ := except_bind_ok h
  cases h

/-- Reading faults at the first byte or after it. -/
theorem readBytes_succ_error_iff {e : FaultKind} : readBytes s addr (n + 1) = .error e ↔
    memRead s addr = .error e ∨ (∃ b, memRead s addr = .ok b) ∧ readBytes s (addr + 1#16) n = .error e := by
  cases hb : memRead s addr with
  | error k => simp [readBytes, hb]
  | ok b => cases hr : readBytes s (addr + 1#16) n <;> simp [readBytes, hb, hr, pure, Except.pure]

end

/-- The bytes read are those at the ascending addresses: induction on their number. -/
theorem readBytes_eq_ok_iff (s : State) (n : Nat) : ∀ (addr : Word) (bytes : List Byte),
    readBytes s addr n = .ok bytes ↔ bytes.length = n ∧
      ∀ (k : Nat) (h : k < bytes.length), memRead s (addr + BitVec.ofNat 16 k) = .ok bytes[k] := by
  induction n with
  | zero =>
    intro addr bytes
    cases bytes <;> simp [readBytes]
  | succ n ih =>
    intro addr bytes
    cases bytes with
    | nil => simp [readBytes_succ_ne_nil]
    | cons b rest =>
      simp only [readBytes_succ_cons_iff, ih, addr_succ_add, List.length_cons, Nat.forall_lt_succ_left',
        Nat.add_right_cancel_iff, BitVec.add_zero, List.getElem_cons_zero, List.getElem_cons_succ]
      exact and_left_comm

/-- The fault of a read of several bytes is that of the first address that faults: induction on their number. -/
theorem readBytes_eq_error_iff (s : State) (e : FaultKind) (n : Nat) : ∀ addr : Word,
    readBytes s addr n = .error e ↔ ∃ j, j < n ∧ memRead s (addr + BitVec.ofNat 16 j) = .error e ∧
      ∀ k, k < j → ∃ b, memRead s (addr + BitVec.ofNat 16 k) = .ok b := by
  induction n with
  | zero =>
    intro addr
    simp [readBytes]
  | succ n ih =>
    intro addr
    simp only [readBytes_succ_error_iff, ih, addr_succ_add, Nat.exists_lt_succ_left, Nat.forall_lt_succ_left,
      BitVec.add_zero, Nat.not_lt_zero, false_imp_iff, implies_true, and_true]
    exact or_congr_right (exists_and_left.symm.trans (exists_congr fun j => by tauto))

/-- Settles O58: both outcomes of the read by induction on the count, and the count by the opcode map. -/
theorem fetchReadsAscendingAddresses : Obligations.FetchReadsAscendingAddresses :=
  ⟨fun s addr n => ⟨readBytes_eq_ok_iff s n addr, fun e => readBytes_eq_error_iff s e n addr⟩,
    fun _ _ _ => operandCount_of_legal, fun _ => operandCount_of_illegal⟩

end Sys2Proof.Machine
end

-- Fetch and addressing (`40_fetch_and_addressing.md`): the step of decoded bytes, and the effective address of each mode.
section
/-!
PROOF. The step runs what the bytes at PC decode to (R80, R81), and what the resolver gives for each mode: the indexed
addresses (R85 to R90), the Indirect pointer (R91) and the zero-page pointers (R92, R93).
-/

namespace Sys2Proof.Machine

/-! ### Fetch and decode (R80, R81) -/

/-- The fetch gives what the opcode byte and its operand bytes decode to. -/
theorem fetchInstr_of_decode {s : State} {b : Byte} {operands rest : List Byte} {i : Instr}
    (hb : memRead s s.pc = .ok b) (ho : readBytes s (s.pc + 1#16) (operandCount b) = .ok operands)
    (hd : decode (b :: operands) = .ok (i, rest)) : fetchInstr s = .ok (i, s.advance 1) := by
  have hr : readBytes (s.advance 1) (s.advance 1).pc (operandCount b) = .ok operands :=
    (readBytes_congr (by rfl) (by rfl) _ _).trans ho
  simp only [fetchInstr, hb, hr, hd]

/-- Settles O6: the fetch of the decoded bytes, then the instruction it gives. -/
theorem stepRunsTheDecodedInstruction : Obligations.StepRunsTheDecodedInstruction :=
  fun _ _ _ _ _ hr hb ho hd => step_of_fetchInstr hr (fetchInstr_of_decode hb ho hd)

/-- Settles O7: the encoding at PC is fetched as the instruction it encodes. -/
theorem stepRunsTheEncodedInstruction : Obligations.StepRunsTheEncodedInstruction :=
  fun _ _ hr _ hb => step_of_fetchInstr hr (fetchInstr_of_encode hb)

/-! ### Modes that read no pointer, and sources (R84 to R90, R100) -/

theorem zext16_eq_ofNat (b : Byte) : zext16 b = BitVec.ofNat 16 b.toNat :=
  (BitVec.ofNat_toNat 16 b).symm

/-- Zero-page indexing drops the carry out of the byte (R86, R87). -/
theorem zext16_add_eq_ofNat (b index : Byte) :
    zext16 (b + index) = BitVec.ofNat 16 ((b.toNat + index.toNat) % 256) := by
  rw [zext16_eq_ofNat, BitVec.toNat_add]

/-- Absolute indexing adds the index as an unsigned value (R89, R90). -/
theorem add_zext16_eq_ofNat (w : Word) (index : Byte) :
    w + zext16 index = BitVec.ofNat 16 (w.toNat + index.toNat) := by
  rw [BitVec.ofNat_add, ← zext16_eq_ofNat, BitVec.ofNat_toNat, BitVec.setWidth_eq]

section
variable {s : State} {m : Mode}

theorem readSrc_mem_of_effAddr_ok {ea : Word} (h : effAddr s m = .ok ea) : readSrc s (.mem m) = memRead s ea := by
  rw [readSrc, readMode, h, ok_bind]

theorem readSrc_mem_of_effAddr_error {k : FaultKind} (h : effAddr s m = .error k) :
    readSrc s (.mem m) = .error k := by
  rw [readSrc, readMode, h, error_bind]

end

/-- Settles O16: the address of each mode that reads no pointer, and the byte of a source. -/
theorem indexedAddressesWrap : Obligations.IndexedAddressesWrap :=
  fun s zp w => ⟨congrArg _ (zext16_eq_ofNat zp), congrArg _ (zext16_add_eq_ofNat zp s.x),
    congrArg _ (zext16_add_eq_ofNat zp s.y), rfl, congrArg _ (add_zext16_eq_ofNat w s.x),
    congrArg _ (add_zext16_eq_ofNat w s.y), fun _ => rfl, fun _ _ => readSrc_mem_of_effAddr_ok, fun _ _ => readSrc_mem_of_effAddr_error⟩

/-! ### The Indirect pointer (R91) -/

/-- A read outside the PPU window completes (R32, R34). -/
theorem memRead_of_not_inPpu {a : Word} (h : ¬ InPpu a) (s : State) : ∃ b, memRead s a = .ok b := by
  cases hr : memRead s a with
  | ok b => exact ⟨b, rfl⟩
  | error k => exact absurd (memRead_error hr).2 h

/-- Both bytes of a pointer lie in the PPU window or neither does: its bounds are page bounds. -/
theorem inPpu_samePageNext_iff (ptr : Word) : InPpu (samePageNext ptr) ↔ InPpu ptr := by
  unfold InPpu
  rw [samePageNext_toNat]
  omega

theorem readPointer_of_reads {s : State} {ptr : Word} {lo hi : Byte} (hlo : memRead s ptr = .ok lo)
    (hhi : memRead s (samePageNext ptr) = .ok hi) : readPointer s ptr = .ok (join16 hi lo) := by
  rw [readPointer, hlo, ok_bind, hhi, ok_bind]
  rfl

theorem readPointer_ppu {s : State} {ptr : Word} (h : InPpu ptr) :
    readPointer s ptr = .error (.unsupportedRegion ptr .read) := by
  rw [readPointer, memRead_ppu h, error_bind]

/-- Settles O17: R91's address of the second byte is the next one in the page, so it reads where the first one does. -/
theorem indirectPointerStaysInItsPage : Obligations.IndirectPointerStaysInItsPage := by
  intro s ptr hiAddr hnext
  rw [← samePageNext_eq] at hnext
  subst hnext
  refine ⟨fun hout => ?_, readPointer_ppu⟩
  obtain ⟨lo, hlo⟩ := memRead_of_not_inPpu hout s
  obtain ⟨hi, hhi⟩ := memRead_of_not_inPpu (mt (inPpu_samePageNext_iff ptr).mp hout) s
  exact ⟨lo, hi, join16 hi lo, hlo, hhi, readPointer_of_reads hlo hhi, join16_toNat hi lo⟩

/-! ### The zero-page pointers (R92, R93) -/

theorem effAddr_izx (s : State) (zp : Byte) : effAddr s (.izx zp) =
    .ok (join16 (s.ram.get ((zp.toNat + s.x.toNat + 1) % 256)) (s.ram.get ((zp.toNat + s.x.toNat) % 256))) := by
  rw [effAddr, readPointer_zeroPage, BitVec.toNat_add, Nat.mod_add_mod]

theorem effAddr_izy (s : State) (zp : Byte) : effAddr s (.izy zp) =
    .ok (join16 (s.ram.get ((zp.toNat + 1) % 256)) (s.ram.get zp.toNat) + zext16 s.y) := by
  rw [effAddr, readPointer_zeroPage, ok_bind]
  rfl

/-- Settles O18: a zero-page pointer is read from RAM, its second byte at the next address modulo 256. -/
theorem zeroPagePointersWrapInPageZero : Obligations.ZeroPagePointersWrapInPageZero := by
  intro s zp
  refine ⟨⟨_, effAddr_izx s zp, join16_toNat _ _⟩, ⟨_, effAddr_izy s zp, ?_⟩⟩
  rw [BitVec.toNat_add, join16_toNat, zext16_toNat]

end Sys2Proof.Machine
end

-- Load, store and transfer (`41_load_store_transfer.md`): LDA, LDX, LDY; STA, STX, STY; and the six transfers.
section
/-!
PROOF. The loads (R100 to R102), the stores (R103 to R105) and the transfers (R106 to R111): the change of the
registers and flags, or of one byte of memory, first with PC kept, then with PC moved past the operand.
-/

namespace Sys2Proof.Machine

/-! ### Frames: what a register write with Z and N changes, and PC moved past the operand (R8, R13, R81) -/

/-- `SetZN` leaves the Z and N of its byte (R8). -/
theorem znFrom_setZN (s : State) (v : Byte) : ZNFrom v (s.setZN v) := by
  simp [ZNFrom]

/-- A register written with its Z and N: no other register or flag, and no memory, SP, run state, log or PC. -/
theorem changesOnly_setReg_setZN (s : State) (r : Reg) (v : Byte) :
    ChangesOnly [r] [.Z, .N] 0 s ((s.setReg r v).setZN v) := by
  refine ⟨fun q hq => ?regs, fun f hf => ?flags, sameMemory_of_eq ?_ ?_, ?_, ?_, ?_, ?_⟩
  case regs => rw [State.setZN_reg, State.setReg_reg, if_neg (List.ne_of_not_mem_cons hq)]
  case flags =>
    obtain ⟨hZ, hN⟩ : f ≠ .Z ∧ f ≠ .N := by simpa using hf
    rw [State.setZN_flag, if_neg hN, if_neg hZ, State.setReg_flag]
  all_goals simp

section
variable {s t : State}

/-- Moving PC past the operand adds only that to what changed. -/
theorem ChangesOnly.advance {rs : List Reg} {fs : List Flag} (h : ChangesOnly rs fs 0 s t) (n : Nat) :
    ChangesOnly rs fs n s (t.advance n) := by
  obtain ⟨hreg, hflag, hmem, hsp, hrun, hlog, hpc⟩ := h
  refine ⟨fun q hq => (State.advance_reg t n q).trans (hreg q hq), hflag, hmem, hsp, hrun, hlog, ?_⟩
  rw [State.advance_pc, hpc, BitVec.add_zero]

/-- Moving PC past the operand adds only that to a store. -/
theorem StoresOnly.advance {ea : Word} {v : Byte} {fs : List Flag} (h : StoresOnly ea v fs 0 s t) (n : Nat) :
    StoresOnly ea v fs n s (t.advance n) := by
  obtain ⟨hbyte, hreg, hflag, hsp, hrun, hpc⟩ := h
  refine ⟨hbyte, fun q hq => (State.advance_reg t n q).trans (hreg q hq), hflag, hsp, hrun, ?_⟩
  rw [State.advance_pc, hpc, BitVec.add_zero]

end

/-! ### The instructions of a shared meaning (R112, R113) -/

section
variable {i : Instr} {r : Reg}

theorem operandLength_of_src {src : Src} (ho : i.operand = src.operand) :
    i.format.operandLength = src.operandLength := by
  rw [Instr.format, ho, Src.operandLength]

theorem operandLength_of_mode {m : Mode} (ho : i.operand = .memory m) :
    i.format.operandLength = m.operandLength :=
  operandLength_of_src (src := .mem m) ho

/-- Every form of LDA, LDX and LDY is the load of its register (R112). -/
theorem exec_eq_load {src : Src} (hi : (i.mnemonic, r) ∈ [(.LDA, .A), (.LDX, .X), (.LDY, .Y)])
    (ho : i.operand = src.operand) (s : State) : exec i s = load r src s := by
  simp only [List.mem_cons, List.not_mem_nil, or_false, Prod.mk.injEq] at hi
  rcases hi with ⟨hm, rfl⟩ | ⟨hm, rfl⟩ | ⟨hm, rfl⟩ <;> rw [exec_eq_meaning, hm, ho] <;> cases src <;> rfl

/-- Every form of STA, STX and STY is the store of its register (R113). -/
theorem exec_eq_store {m : Mode} (hi : (i.mnemonic, r) ∈ [(.STA, .A), (.STX, .X), (.STY, .Y)])
    (ho : i.operand = .memory m) (s : State) : exec i s = store r m s := by
  simp only [List.mem_cons, List.not_mem_nil, or_false, Prod.mk.injEq] at hi
  rcases hi with ⟨hm, rfl⟩ | ⟨hm, rfl⟩ | ⟨hm, rfl⟩ <;> rw [exec_eq_meaning, hm, ho] <;> rfl

/-- Only JMP has the Indirect format (R61, R64). -/
theorem ind_notMem_formatsOf {m : Mnemonic} (hm : m ≠ .JMP) : Format.ind ∉ formatsOf m := by
  cases m
  case JMP => exact absurd rfl hm
  all_goals decide

/-- The address of an instruction other than JMP resolves in every state: no other has the Indirect mode, whose
pointer alone can lie in the PPU window (R95). -/
theorem effAddr_ok_of_ne_jmp {m : Mode} (hi : i.mnemonic ≠ .JMP) (ho : i.operand = .memory m) (s : State) :
    ∃ ea, effAddr s m = .ok ea := by
  refine effAddr_ok_of_ne_ind s m fun hind => ind_notMem_formatsOf hi ?_
  have hformat : i.format = .ind := by rw [Instr.format, ho, Operand.format, hind]
  exact hformat ▸ i.format_mem_formatsOf

end

/-! ### Loads (R100 to R102, R112) -/

/-- Settles O19: a load is its register written with Z and N, then PC past the operand; its only fault is the read's. -/
theorem loadsWriteTheirRegister : Obligations.LoadsWriteTheirRegister := by
  intro i r src s hi ho
  rw [exec_eq_load hi ho, operandLength_of_src ho, load]
  refine ⟨fun m hread => ?_, fun k hread => ⟨readSrc_ppuFault hread, ?_⟩⟩ <;> rw [hread]
  · refine ⟨_, orFault_ok _ _ _, ?_, znFrom_setZN _ m, (changesOnly_setReg_setZN s r m).advance _⟩
    simp
  · exact faultsWith_raise s k

/-! ### Stores (R103 to R105, R113) -/

/-- Settles O20: the address resolves, as no store is Indirect, and the region it lies in decides what the write does. -/
theorem storesWriteOneByte : Obligations.StoresWriteOneByte := by
  intro i r m s hi ho
  have hjmp : i.mnemonic ≠ .JMP := fun hj => by simp [hj] at hi
  obtain ⟨ea, hea⟩ := effAddr_ok_of_ne_jmp hjmp ho s
  rw [exec_eq_store hi ho, operandLength_of_mode ho, store, writeMode_eq hea]
  refine ⟨ea, hea, fun hwritable => ?_, fun hppu => ?_, fun hrom => ?_⟩
  · obtain ⟨t, hwrite, hstores, -⟩ := memWrite_stores hwritable s (s.reg r)
    rw [hwrite]
    exact ⟨_, orFault_ok _ _ _, hstores.advance _⟩
  · rw [memWrite_ppu hppu]
    exact faultsWith_raise s _
  · rw [memWrite_rom hrom]
    exact faultsWith_raise s _

/-! ### Transfers (R106 to R111) -/

/-- Settles O21: each of the five is the shared transfer of its source to its destination. -/
theorem transfersCopyAndFlag : Obligations.TransfersCopyAndFlag := by
  intro s i v r hi
  have hexec : exec i s = transfer v r s := by
    simp only [List.mem_cons, List.not_mem_nil, or_false, Prod.mk.injEq] at hi
    rcases hi with ⟨rfl, rfl, rfl⟩ | ⟨rfl, rfl, rfl⟩ | ⟨rfl, rfl, rfl⟩ | ⟨rfl, rfl, rfl⟩ | ⟨rfl, rfl, rfl⟩ <;> rfl
  refine ⟨_, hexec, ?_, znFrom_setZN _ v, changesOnly_setReg_setZN s r v⟩
  simp

/-- Settles O22: TXS is the write of SP alone, with no Z and N. -/
theorem txsSetsOnlyTheStackPointer : Obligations.TxsSetsOnlyTheStackPointer := fun s =>
  ⟨s.setSp s.x, rfl, State.setSp_sp s s.x, fun q _ => State.setSp_reg s s.x q, fun f _ => State.setSp_flag s s.x f,
    sameMemory_of_eq rfl rfl, rfl, rfl, rfl⟩

end Sys2Proof.Machine
end

-- Arithmetic and logical (`42_arithmetic_logical.md`): ADC, SBC, AND, ORA, EOR; and the flags that steer nothing.
section
/-!
PROOF. I, D, B and B2 steer nothing (R12, R121, R208): setting one of them before an instruction and setting it
afterwards give one outcome, for each update, access and shared meaning in turn. Then the exact arithmetic of ADC and
SBC (R122, R123) and the bitwise combinations (R124 to R126).
-/

namespace Sys2Proof.Machine

/-! ### The idle flags (R12, column "effect on execution") -/

/-- The flags that only the stack and flag instructions read or write. -/
def Flag.Idle (f : Flag) : Prop := f ∈ [.I, .D, .B, .B2]

theorem Flag.Idle.ne {f g : Flag} (hf : f.Idle) (hg : g ∈ [.C, .Z, .V, .N]) : f ≠ g := by
  rintro rfl
  cases f
  case I | D | B | B2 => exact absurd hg (by decide)
  case C | Z | V | N => exact absurd hf (by unfold Flag.Idle; decide)

/-- Every bit of P is a flag's (R11). -/
theorem Flag.exists_bit_eq {k : Nat} (hk : k < 8) : ∃ g : Flag, g.bit = k := by
  interval_cases k
  exacts [⟨.C, rfl⟩, ⟨.Z, rfl⟩, ⟨.I, rfl⟩, ⟨.D, rfl⟩, ⟨.B, rfl⟩, ⟨.B2, rfl⟩, ⟨.V, rfl⟩, ⟨.N, rfl⟩]

/-- A status byte is its eight flags (R11). -/
theorem eq_of_flagOf_eq {p q : Byte} (h : ∀ g, flagOf p g = flagOf q g) : p = q := by
  refine BitVec.eq_of_getLsbD_eq fun k hk => ?_
  obtain ⟨g, rfl⟩ := Flag.exists_bit_eq hk
  exact h g

/-- The outcome with one flag set in its next state. -/
def setFlagAfter (f : Flag) (b : Bool) : Result → Result
  | .next t => .next (t.setFlag f b)
  | .fault r => .fault r
  | .refused r => .refused r

/-! ### Setting a flag before or after an update -/

section
variable {f : Flag} {b : Bool}

/-- Writes of two different flags commute (R12). -/
theorem withFlag_comm {g : Flag} (hne : f ≠ g) (p : Byte) (c : Bool) :
    withFlag (withFlag p f b) g c = withFlag (withFlag p g c) f b := by
  refine eq_of_flagOf_eq fun e => ?_
  by_cases he : e = f
  · simp [he, hne]
  · simp [he]

theorem State.setFlag_comm {g : Flag} (hne : f ≠ g) (s : State) (c : Bool) :
    (s.setFlag f b).setFlag g c = (s.setFlag g c).setFlag f b :=
  congrArg s.setP (withFlag_comm hne s.p c)

theorem State.setReg_setFlag (s : State) (r : Reg) (v : Byte) :
    (s.setFlag f b).setReg r v = (s.setReg r v).setFlag f b := by
  cases r <;> rfl

section
variable (hf : f.Idle)
include hf

theorem State.flag_setFlag_of_idle (s : State) (g : Flag) (hg : g ∈ [.C, .Z, .V, .N]) :
    (s.setFlag f b).flag g = s.flag g := by
  rw [State.setFlag_flag, if_neg (hf.ne hg).symm]

theorem State.setZN_setFlag (s : State) (v : Byte) : (s.setFlag f b).setZN v = (s.setZN v).setFlag f b := by
  unfold State.setZN
  rw [State.setFlag_comm (hf.ne (by decide)), State.setFlag_comm (hf.ne (by decide))]

theorem State.compareFlags_setFlag (s : State) (r m : Byte) :
    (s.setFlag f b).compareFlags r m = (s.compareFlags r m).setFlag f b := by
  unfold State.compareFlags
  rw [State.setFlag_comm (hf.ne (by decide)), State.setZN_setFlag hf]

theorem State.bitFlags_setFlag (s : State) (m : Byte) :
    (s.setFlag f b).bitFlags m = (s.bitFlags m).setFlag f b := by
  unfold State.bitFlags
  rw [State.setFlag_comm (hf.ne (by decide)), State.setFlag_comm (hf.ne (by decide)),
    State.setFlag_comm (hf.ne (by decide)), State.setFlag_a]

theorem State.shiftFlags_setFlag (s : State) (k : ShiftKind) (v r : Byte) :
    (s.setFlag f b).shiftFlags k v r = (s.shiftFlags k v r).setFlag f b := by
  unfold State.shiftFlags
  rw [State.setFlag_comm (hf.ne (by decide)), State.setZN_setFlag hf]

end

end

/-- ADC's effect as flag and register writes (R122). -/
theorem State.addToA_eq (s : State) (m : Byte) :
    s.addToA m = (((s.setFlag .C (adcCarry s.a m (s.flag .C))).setFlag .V (adcOverflow s.a m (s.flag .C))).setReg .A
      (adcResult s.a m (s.flag .C))).setZN (adcResult s.a m (s.flag .C)) := rfl

section
variable {f : Flag} {b : Bool}

/-- ADC and SBC compute from A, M and the carry alone, in binary whatever D is (R121). -/
theorem State.addToA_setFlag (hf : f.Idle) (s : State) (m : Byte) :
    (s.setFlag f b).addToA m = (s.addToA m).setFlag f b := by
  rw [State.addToA_eq, State.addToA_eq, State.flag_setFlag_of_idle hf s .C (by decide), State.setFlag_a,
    State.setFlag_comm (hf.ne (by decide)), State.setFlag_comm (hf.ne (by decide)), State.setReg_setFlag,
    State.setZN_setFlag hf]

/-! ### Setting a flag before or after an access (R41) -/

theorem effAddr_setFlag (s : State) (m : Mode) : effAddr (s.setFlag f b) m = effAddr s m :=
  effAddr_congr rfl rfl rfl rfl m

theorem readSrc_setFlag (s : State) (src : Src) : readSrc (s.setFlag f b) src = readSrc s src :=
  readSrc_congr rfl rfl rfl rfl src

theorem memRead_setFlag (s : State) (a : Word) : memRead (s.setFlag f b) a = memRead s a :=
  memRead_congr rfl rfl a

theorem memWrite_setFlag (s : State) (a : Word) (v : Byte) :
    memWrite (s.setFlag f b) a v = (memWrite s a v).map (·.setFlag f b) := by
  unfold memWrite
  cases region a <;> rfl

theorem writeMode_setFlag (s : State) (m : Mode) (v : Byte) :
    writeMode (s.setFlag f b) m v = (writeMode s m v).map (·.setFlag f b) := by
  unfold writeMode
  rw [effAddr_setFlag]
  cases effAddr s m with
  | error k => rfl
  | ok ea => exact memWrite_setFlag s ea v

theorem modifyMode_setFlag (s : State) (m : Mode) (g : Byte → Byte) :
    modifyMode (s.setFlag f b) m g = (modifyMode s m g).map fun p => (p.1, p.2.setFlag f b) := by
  unfold modifyMode
  rw [effAddr_setFlag]
  cases effAddr s m with
  | error k => rfl
  | ok ea =>
    simp only [ok_bind, memRead_setFlag, memWrite_setFlag]
    cases memRead s ea with
    | error k => rfl
    | ok v => cases hw : memWrite s ea (g v) <;> simp only [ok_bind, hw] <;> rfl

/-! ### Setting a flag before or after a shared meaning -/

/-- A fault entry is the same but for the flag, and a completion is when its continuation is. Here `g` carries the
flag into the result of the accesses, which may hold a state. -/
theorem orFault_map_setFlag {α : Type} {s : State} {r : Except FaultKind α} {g : α → α} {k k' : α → State}
    (hk : ∀ v, k' (g v) = (k v).setFlag f b) :
    orFault (s.setFlag f b) (r.map g) k' = setFlagAfter f b (orFault s r k) := by
  cases r with
  | error e => rfl
  | ok v => exact congrArg Host.Outcome.next (hk v)

/-- As `orFault_map_setFlag`, for accesses that only read. -/
theorem orFault_setFlag {α : Type} {s : State} {r : Except FaultKind α} {k k' : α → State}
    (hk : ∀ v, k' v = (k v).setFlag f b) : orFault (s.setFlag f b) r k' = setFlagAfter f b (orFault s r k) := by
  have h := orFault_map_setFlag (s := s) (r := r) (g := id) hk
  rwa [Except.map_id] at h

theorem withSrc_setFlag {s : State} {src : Src} {g g' : Byte → State} (hg : ∀ m, g' m = (g m).setFlag f b) :
    withSrc src (s.setFlag f b) g' = setFlagAfter f b (withSrc src s g) := by
  unfold withSrc
  rw [readSrc_setFlag]
  exact orFault_setFlag fun m => by rw [hg]; rfl

theorem store_setFlag (r : Reg) (m : Mode) (s : State) :
    store r m (s.setFlag f b) = setFlagAfter f b (store r m s) := by
  unfold store
  rw [State.setFlag_reg, writeMode_setFlag]
  exact orFault_map_setFlag fun _ => rfl

theorem jump_setFlag (m : Mode) (s : State) : jump m (s.setFlag f b) = setFlagAfter f b (jump m s) := by
  unfold jump
  rw [effAddr_setFlag]
  exact orFault_setFlag fun _ => rfl

theorem branch_setFlag (cond : Bool) (off : Byte) (s : State) :
    branch cond off (s.setFlag f b) = setFlagAfter f b (branch cond off s) := by
  cases cond <;> rfl

theorem push_setFlag (v : Byte) (s : State) : push v (s.setFlag f b) = setFlagAfter f b (push v s) := by
  rw [push_eq, push_eq]
  rfl

theorem callSub_setFlag (target : Word) (s : State) :
    callSub target (s.setFlag f b) = setFlagAfter f b (callSub target s) := by
  rw [callSub_eq, callSub_eq]
  rfl

theorem returnSub_setFlag (s : State) : returnSub (s.setFlag f b) = setFlagAfter f b (returnSub s) := by
  rw [returnSub_eq, returnSub_eq]
  rfl

section
variable (hf : f.Idle)
include hf

/-- A register write with Z and N from one byte: the loads, the transfers, PLA, and the logical instructions. -/
theorem State.setReg_setZN_setFlag (s : State) (r : Reg) (v w : Byte) :
    ((s.setFlag f b).setReg r v).setZN w = ((s.setReg r v).setZN w).setFlag f b := by
  rw [State.setReg_setFlag, State.setZN_setFlag hf]

theorem transfer_setFlag (v : Byte) (r : Reg) (s : State) :
    transfer v r (s.setFlag f b) = setFlagAfter f b (transfer v r s) :=
  congrArg Host.Outcome.next (State.setReg_setZN_setFlag hf s r v v)

theorem pullA_setFlag (s : State) : pullA (s.setFlag f b) = setFlagAfter f b (pullA s) := by
  rw [pullA_eq, pullA_eq]
  exact congrArg Host.Outcome.next (State.setReg_setZN_setFlag hf (popped s) .A _ _)

theorem shiftA_setFlag (k : ShiftKind) (s : State) :
    shiftA k (s.setFlag f b) = setFlagAfter f b (shiftA k s) := by
  simp only [shiftA, State.flag_setFlag_of_idle hf s .C (by decide), State.setFlag_a, State.setReg_setFlag,
    State.shiftFlags_setFlag hf]
  rfl

theorem shiftMem_setFlag (k : ShiftKind) (m : Mode) (s : State) :
    shiftMem k m (s.setFlag f b) = setFlagAfter f b (shiftMem k m s) := by
  unfold shiftMem
  rw [State.flag_setFlag_of_idle hf s .C (by decide), modifyMode_setFlag]
  exact orFault_map_setFlag fun ⟨v, u⟩ => congrArg (State.advance · _) (State.shiftFlags_setFlag hf u k v _)

theorem stepMem_setFlag (g : Byte → Byte) (m : Mode) (s : State) :
    stepMem g m (s.setFlag f b) = setFlagAfter f b (stepMem g m s) := by
  unfold stepMem
  rw [modifyMode_setFlag]
  exact orFault_map_setFlag fun ⟨v, u⟩ => congrArg (State.advance · _) (State.setZN_setFlag hf u (g v))

end

/-! ### Setting a flag before or after an instruction -/

section
variable {o : Operand} {s : State}

theorem onSrc_setFlag {g g' : Byte → State} (hg : ∀ m, g' m = (g m).setFlag f b) :
    (onSrc o (s.setFlag f b) fun src => withSrc src (s.setFlag f b) g') =
      setFlagAfter f b (onSrc o s fun src => withSrc src s g) := by
  cases o
  case immediate | memory => exact withSrc_setFlag hg
  case implied | accumulator | relative => rfl

theorem onMode_setFlag {k k' : Mode → Result} (hk : ∀ m, k' m = setFlagAfter f b (k m)) :
    onMode o (s.setFlag f b) k' = setFlagAfter f b (onMode o s k) := by
  cases o
  case memory => exact hk _
  case implied | accumulator | immediate | relative => rfl

theorem onShift_setFlag (hf : f.Idle) (k : ShiftKind) :
    onShift o (s.setFlag f b) k = setFlagAfter f b (onShift o s k) := by
  cases o
  case accumulator => exact shiftA_setFlag hf k s
  case memory m => exact shiftMem_setFlag hf k m s
  case implied | immediate | relative => rfl

theorem onBranch_setFlag (cond : Bool) :
    onBranch o (s.setFlag f b) cond = setFlagAfter f b (onBranch o s cond) := by
  cases o
  case relative off => exact branch_setFlag cond off s
  case implied | accumulator | immediate | memory => rfl

theorem onCall_setFlag : onCall o (s.setFlag f b) = setFlagAfter f b (onCall o s) := by
  unfold onCall
  split
  · exact callSub_setFlag _ s
  · rfl

end

/-- No mnemonic but the stack and flag instructions reads or writes an idle flag. -/
theorem meaning_setFlag (hf : f.Idle) {m : Mnemonic} (hm : m ∉ [.PHP, .PLP, .RTI, .CLD, .SED, .CLI, .SEI])
    (o : Operand) (s : State) : meaning m o (s.setFlag f b) = setFlagAfter f b (meaning m o s) := by
  have hflag := State.flag_setFlag_of_idle (b := b) hf s
  cases m
  case PHP | PLP | RTI | CLD | SED | CLI | SEI => exact absurd (by decide) hm
  case LDA | LDX | LDY | AND | ORA | EOR =>
    exact onSrc_setFlag fun v => State.setReg_setZN_setFlag hf s _ _ _
  case ADC | SBC =>
    exact onSrc_setFlag fun v => State.addToA_setFlag hf s _
  case CMP | CPX | CPY =>
    exact onSrc_setFlag fun v => State.compareFlags_setFlag hf s _ v
  case BIT => exact onMode_setFlag fun m => withSrc_setFlag (src := .mem m) fun v => State.bitFlags_setFlag hf s v
  case STA | STX | STY => exact onMode_setFlag fun m => store_setFlag _ m s
  case ASL | LSR | ROL | ROR => exact onShift_setFlag hf _
  case INC | DEC => exact onMode_setFlag fun m => stepMem_setFlag hf _ m s
  case TAX | TAY | TXA | TYA | TSX | INX | INY | DEX | DEY => exact transfer_setFlag hf _ _ s
  case BCC | BCS => simp only [meaning, hflag .C (by decide), onBranch_setFlag]
  case BEQ | BNE => simp only [meaning, hflag .Z (by decide), onBranch_setFlag]
  case BMI | BPL => simp only [meaning, hflag .N (by decide), onBranch_setFlag]
  case BVC | BVS => simp only [meaning, hflag .V (by decide), onBranch_setFlag]
  case JMP => exact onMode_setFlag fun m => jump_setFlag m s
  case JSR => exact onCall_setFlag
  case RTS => exact returnSub_setFlag s
  case PHA => exact push_setFlag s.a s
  case PLA => exact pullA_setFlag hf s
  case CLC | SEC | CLV => exact congrArg Host.Outcome.next (State.setFlag_comm (hf.ne (by decide)) s _)
  case TXS | NOP | BRK => rfl

end

/-- Settles O52: with the flag set beforehand the instruction ends as it did, with the flag set afterwards, so a
completed state differs in that flag alone and a fault keeps its kind and record. -/
theorem idleFlagsDoNotSteerExecution : Obligations.IdleFlagsDoNotSteerExecution := by
  intro f b i s t hf hi h
  have hset : exec i (s.setFlag f b) = .next (t.setFlag f b) := by
    rw [exec_eq_meaning, meaning_setFlag hf hi, ← exec_eq_meaning, h]
    rfl
  exact ⟨fun _ => hset, fun k hk => ⟨_, hset, hk⟩⟩

/-! ### The instructions of a source (R120) -/

section
variable {i : Instr} {src : Src} {s : State} {f : Byte → State}

theorem withSrc_of_read {m : Byte} (h : readSrc s src = .ok m) :
    withSrc src s f = .next ((f m).advance src.operandLength) := by
  rw [withSrc, h, orFault_ok]

/-- The only fault is that of the read, and it leaves memory and log (R120, R202, R204). -/
theorem withSrc_of_fault {k : FaultKind} (h : readSrc s src = .error k) :
    PpuReadFault k ∧ FaultsWith k s (withSrc src s f) := by
  rw [withSrc, h, orFault_error]
  exact ⟨readSrc_ppuFault h, faultsWith_raise s k⟩

/-- Every form of ADC adds its source to A, and every form of SBC its source's complement (R122, R123). -/
theorem exec_eq_addToA {g : Byte → Byte} (hi : i.mnemonic = .ADC ∧ g = id ∨ i.mnemonic = .SBC ∧ g = sbcAddend)
    (ho : i.operand = src.operand) (s : State) : exec i s = withSrc src s fun m => s.addToA (g m) := by
  rcases hi with ⟨hm, rfl⟩ | ⟨hm, rfl⟩ <;> rw [exec_eq_meaning, hm, ho] <;> cases src <;> rfl

/-- Every form of AND, ORA and EOR combines A with its source bit by bit (R124 to R126). -/
theorem exec_eq_logical {g : Bool → Bool → Bool}
    (hi : i.mnemonic = .AND ∧ g = and ∨ i.mnemonic = .ORA ∧ g = or ∨ i.mnemonic = .EOR ∧ g = xor)
    (ho : i.operand = src.operand) (s : State) : ∃ op : Byte → Byte → Byte, exec i s = logical op src s ∧
      ∀ a m n, (op a m).getLsbD n = g (a.getLsbD n) (m.getLsbD n) := by
  rw [exec_eq_meaning, ho]
  rcases hi with ⟨hm, rfl⟩ | ⟨hm, rfl⟩ | ⟨hm, rfl⟩ <;> rw [hm]
  · exact ⟨(· &&& ·), by cases src <;> rfl, fun _ _ _ => BitVec.getLsbD_and⟩
  · exact ⟨(· ||| ·), by cases src <;> rfl, fun _ _ _ => BitVec.getLsbD_or⟩
  · exact ⟨(· ^^^ ·), by cases src <;> rfl, fun _ _ _ => BitVec.getLsbD_xor⟩

end

/-! ### ADC and SBC (R122, R123) -/

theorem carryNat_eq_toNat (c : Bool) : carryNat c = c.toNat := by
  cases c <;> rfl

/-- An addition changes A, C, V, Z and N and nothing else. -/
theorem changesOnly_addToA (s : State) (m : Byte) : ChangesOnly [.A] [.C, .V, .Z, .N] 0 s (s.addToA m) := by
  refine ⟨fun q hq => ?regs, fun f hf => ?flags, sameMemory_of_eq rfl rfl, rfl, rfl, rfl, (BitVec.add_zero _).symm⟩
  case regs => rw [State.addToA_reg, if_neg (List.ne_of_not_mem_cons hq)]
  case flags =>
    obtain ⟨hC, hV, hZ, hN⟩ : f ≠ .C ∧ f ≠ .V ∧ f ≠ .Z ∧ f ≠ .N := by simpa using hf
    rw [State.addToA_flag, if_neg hN, if_neg hZ, if_neg hV, if_neg hC]

theorem znFrom_addToA (s : State) (m : Byte) : ZNFrom (s.addToA m).a (s.addToA m) := by
  simp [ZNFrom]

/-- The result of an addition (R122). -/
theorem addToA_a_toNat (s : State) (m : Byte) :
    (s.addToA m).a.toNat = (s.a.toNat + m.toNat + (s.flag .C).toNat) % 256 := by
  rw [State.addToA_a, adcResult_toNat, carryNat_eq_toNat]

/-- C after an addition is the carry out of the byte (R122). -/
theorem addToA_carry_iff (s : State) (m : Byte) :
    (s.addToA m).flag .C = true ↔ 0xFF < s.a.toNat + m.toNat + (s.flag .C).toNat := by
  simp [adcCarry, adcSum, carryNat_eq_toNat]

/-- V after an addition is the overflow of the signed sum (R122). -/
theorem addToA_overflow_iff (s : State) (m : Byte) :
    (s.addToA m).flag .V = true ↔ s.a.toInt + m.toInt + (s.flag .C).toNat < -128 ∨
      127 < s.a.toInt + m.toInt + (s.flag .C).toNat := by
  rw [← carryNat_eq_toNat, ← adcOverflow_iff_signed]
  simp

/-- Settles O23: the addition of the byte read, then PC past the operand; its only fault is the read's. -/
theorem adcAddsWithCarry : Obligations.AdcAddsWithCarry := by
  intro i src s hi ho
  rw [exec_eq_addToA (.inl ⟨hi, rfl⟩) ho, operandLength_of_src ho]
  refine ⟨fun m hread => ?_, fun k => withSrc_of_fault⟩
  exact ⟨_, withSrc_of_read hread, addToA_a_toNat s m, addToA_carry_iff s m, addToA_overflow_iff s m,
    znFrom_addToA s m, (changesOnly_addToA s m).advance _⟩

/-- Settles O24: the addition of 255 - M, whose sum is 256 more than A - M - (1 - C), so it carries exactly when
nothing is borrowed; read as a signed value the addend is -1 - M. -/
theorem sbcSubtractsWithBorrow : Obligations.SbcSubtractsWithBorrow := by
  intro i src s hi ho
  rw [exec_eq_addToA (.inr ⟨hi, rfl⟩) ho, operandLength_of_src ho]
  refine ⟨fun m hread => ?_, fun k => withSrc_of_fault⟩
  have hm := m.isLt
  have hc := (s.flag .C).toNat_le
  have hresult := addToA_a_toNat s (sbcAddend m)
  have hcarry := addToA_carry_iff s (sbcAddend m)
  have hoverflow := addToA_overflow_iff s (sbcAddend m)
  rw [sbcAddend_toNat] at hresult hcarry
  rw [sbcAddend_toInt] at hoverflow
  refine ⟨_, withSrc_of_read hread, ?_, hcarry.trans ?_, hoverflow.trans ?_, znFrom_addToA s _,
    (changesOnly_addToA s _).advance _⟩
  · rw [State.advance_a, hresult]
    omega
  · omega
  · omega

/-! ### AND, ORA and EOR (R124 to R126) -/

/-- Settles O25: A written with the combination and its Z and N, then PC past the operand; its only fault is the
read's. -/
theorem logicalOpsCombineWithA : Obligations.LogicalOpsCombineWithA := by
  intro i f src s hi ho
  obtain ⟨op, hexec, hbit⟩ := exec_eq_logical hi ho s
  rw [hexec, operandLength_of_src ho]
  refine ⟨fun m hread => ?_, fun k => withSrc_of_fault⟩
  exact ⟨_, withSrc_of_read hread, fun n _ => hbit s.a m n, znFrom_setZN _ (op s.a m),
    (changesOnly_setReg_setZN s .A (op s.a m)).advance _⟩

end Sys2Proof.Machine
end

-- Shift, increment and decrement (`43_shift_incdec.md`): ASL, LSR, ROL, ROR; INC, DEC; INX, INY, DEX, DEY.
section
/-!
PROOF. The shifts of A and of memory (R130 to R134), and the steps by one of memory and of X and Y (R135 to R140): the
exact results, then the read-modify-write by the region of its address, then the flags on top of it.
-/

namespace Sys2Proof.Machine

/-! ### The results as exact numbers (R131 to R136) -/

section
variable {v : Byte} {c : Bool}

theorem toNat_result_asl : (ShiftKind.asl.result v c).toNat = 2 * v.toNat % 256 := by
  rw [ShiftKind.result, BitVec.toNat_shiftLeft, Nat.shiftLeft_eq, Nat.pow_one, Nat.mul_comm]

theorem toNat_result_lsr : (ShiftKind.lsr.result v c).toNat = v.toNat / 2 := by
  rw [ShiftKind.result, BitVec.toNat_ushiftRight, Nat.shiftRight_one]

/-- The carry enters at bit 0, which the doubling leaves clear (R133). -/
theorem toNat_result_rol : (ShiftKind.rol.result v c).toNat = (2 * v.toNat + c.toNat) % 256 := by
  have hcarry : (if c then 0x01#8 else 0x00#8).toNat = c.toNat := by cases c <;> rfl
  have heven : (v <<< 1).toNat = 2 ^ 1 * (v.toNat % 128) := by
    rw [BitVec.toNat_shiftLeft, Nat.shiftLeft_eq]
    omega
  have hc : c.toNat < 2 ^ 1 := c.toNat_lt
  rw [ShiftKind.result, BitVec.toNat_or, heven, hcarry, ← Nat.two_pow_add_eq_or_of_lt hc]
  omega

/-- The carry enters at bit 7, which the halving leaves clear (R134). -/
theorem toNat_result_ror : (ShiftKind.ror.result v c).toNat = v.toNat / 2 + 128 * c.toNat := by
  have hcarry : (if c then 0x80#8 else 0x00#8).toNat = 2 ^ 7 * c.toNat := by cases c <;> rfl
  have hhalf : v.toNat / 2 < 2 ^ 7 := Nat.div_lt_of_lt_mul v.isLt
  rw [ShiftKind.result, BitVec.toNat_or, hcarry, BitVec.toNat_ushiftRight, Nat.shiftRight_one, Nat.or_comm,
    ← Nat.two_pow_add_eq_or_of_lt hhalf, Nat.add_comm]

theorem toNat_add_one : (v + 1#8).toNat = (v.toNat + 1) % 256 :=
  BitVec.toNat_add v 1#8

/-- Subtracting 1 is adding 255 modulo 256 (R136). -/
theorem toNat_sub_one : (v - 1#8).toNat = (v.toNat + 255) % 256 := by
  rw [BitVec.toNat_sub, Nat.add_comm]
  rfl

end

/-! ### Changes one after another -/

section
variable {s t u : State}

/-- What two changes change is what either changes. -/
theorem ChangesOnly.trans {rs rs' : List Reg} {fs fs' : List Flag} {n n' : Nat} (h : ChangesOnly rs fs n s t)
    (h' : ChangesOnly rs' fs' n' t u) : ChangesOnly (rs ++ rs') (fs ++ fs') (n + n') s u := by
  obtain ⟨hreg, hflag, hmem, hsp, hrun, hlog, hpc⟩ := h
  obtain ⟨hreg', hflag', hmem', hsp', hrun', hlog', hpc'⟩ := h'
  refine ⟨fun q hq => ?_, fun f hf => ?_, fun addr => (hmem' addr).trans (hmem addr), hsp'.trans hsp, hrun'.trans hrun,
    hlog'.trans hlog, ?_⟩
  · rw [List.mem_append, not_or] at hq
    exact (hreg' q hq.2).trans (hreg q hq.1)
  · rw [List.mem_append, not_or] at hf
    exact (hflag' f hf.2).trans (hflag f hf.1)
  · rw [hpc', hpc, BitVec.ofNat_add, BitVec.add_assoc]

/-- Flags changed after a store leave the stored byte and add only themselves. -/
theorem StoresOnly.changesFlags {ea : Word} {v : Byte} {fs : List Flag} (h : StoresOnly ea v [] 0 s t)
    (h' : ChangesOnly [] fs 0 t u) : StoresOnly ea v fs 0 s u := by
  obtain ⟨⟨hram, hignored⟩, hreg, hflag, hsp, hrun, hpc⟩ := h
  obtain ⟨hreg', hflag', hmem', hsp', hrun', hlog', hpc'⟩ := h'
  refine ⟨⟨fun hea => ?_, fun hea => ?_⟩, fun q hq => (hreg' q hq).trans (hreg q hq),
    fun f hf => (hflag' f hf).trans (hflag f List.not_mem_nil), hsp'.trans hsp, hrun'.trans hrun, ?_⟩
  · obtain ⟨halias, hother, hlog⟩ := hram hea
    exact ⟨fun addr ha => (hmem' addr).trans (halias addr ha), fun addr ha => (hmem' addr).trans (hother addr ha),
      hlog'.trans hlog⟩
  · obtain ⟨hmem, hlog⟩ := hignored hea
    exact ⟨fun addr => (hmem' addr).trans (hmem addr), hlog'.trans hlog⟩
  · rw [hpc', BitVec.add_zero, hpc]

end

theorem changesOnly_setReg (s : State) (r : Reg) (v : Byte) : ChangesOnly [r] [] 0 s (s.setReg r v) := by
  refine ⟨fun q hq => ?regs, fun f _ => State.setReg_flag s r v f, sameMemory_of_eq ?_ ?_, ?_, ?_, ?_, ?_⟩
  case regs => rw [State.setReg_reg, if_neg (List.ne_of_not_mem_cons hq)]
  all_goals simp

theorem changesOnly_setFlag (s : State) (f : Flag) (b : Bool) : ChangesOnly [] [f] 0 s (s.setFlag f b) := by
  refine ⟨fun q _ => State.setFlag_reg s f b q, fun g hg => ?flags, sameMemory_of_eq rfl rfl, rfl, rfl, rfl,
    (BitVec.add_zero _).symm⟩
  case flags => rw [State.setFlag_flag, if_neg (List.ne_of_not_mem_cons hg)]

theorem changesOnly_setZN (s : State) (v : Byte) : ChangesOnly [] [.Z, .N] 0 s (s.setZN v) :=
  (changesOnly_setFlag s .Z _).trans (changesOnly_setFlag _ .N _)

theorem changesOnly_shiftFlags (s : State) (k : ShiftKind) (v r : Byte) :
    ChangesOnly [] [.C, .Z, .N] 0 s (s.shiftFlags k v r) :=
  (changesOnly_setFlag s .C _).trans (changesOnly_setZN _ r)

/-- A shift leaves the Z and N of its result (R131 to R134). -/
theorem znFrom_shiftFlags (s : State) (k : ShiftKind) (v r : Byte) : ZNFrom r (s.shiftFlags k v r) :=
  znFrom_setZN _ r

theorem shiftFlags_carry (s : State) (k : ShiftKind) (v r : Byte) : (s.shiftFlags k v r).flag .C = k.carryOut v := by
  simp

/-! ### Read-modify-write by the region of its address (R130, R32) -/

section
variable {s : State} {m : Mode} {ea : Word} {v : Byte} {f : Byte → Byte} {k : Byte × State → State}

/-- In the PPU window the read faults, before any write (R202). -/
theorem orFault_modifyMode_ppu (hea : effAddr s m = .ok ea) (h : InPpu ea) :
    FaultsWith (.unsupportedRegion ea .read) s (orFault s (modifyMode s m f) k) := by
  rw [modifyMode_ppu f hea h]
  exact faultsWith_raise s _

/-- In ROM the write of the new byte faults (R203). -/
theorem orFault_modifyMode_rom (hea : effAddr s m = .ok ea) (hread : memRead s ea = .ok v) (h : InRom ea) :
    FaultsWith (.romWriteViolation ea (f v)) s (orFault s (modifyMode s m f) k) := by
  rw [modifyMode_eq f hea hread, memWrite_rom h]
  exact faultsWith_raise s _

/-- At a writable address the new byte is stored, and the meaning continues from that state. -/
theorem orFault_modifyMode_writable (hea : effAddr s m = .ok ea) (hread : memRead s ea = .ok v) (h : Writable ea) :
    ∃ u, orFault s (modifyMode s m f) k = .next (k (v, u)) ∧ StoresOnly ea (f v) [] 0 s u := by
  obtain ⟨u, hwrite, hstores, -⟩ := memWrite_stores h s (f v)
  rw [modifyMode_eq f hea hread, hwrite]
  exact ⟨u, rfl, hstores⟩

end

/-! ### Shifts (R130 to R134) -/

/-- The mnemonic of a shift or rotate (R131 to R134). -/
def ShiftKind.mnemonic : ShiftKind → Mnemonic
  | .asl => .ASL
  | .lsr => .LSR
  | .rol => .ROL
  | .ror => .ROR

theorem exists_shiftKind_of_mem {m : Mnemonic} (h : m ∈ [.ASL, .LSR, .ROL, .ROR]) :
    ∃ k : ShiftKind, m = k.mnemonic := by
  simp only [List.mem_cons, List.not_mem_nil, or_false] at h
  rcases h with rfl | rfl | rfl | rfl
  exacts [⟨.asl, rfl⟩, ⟨.lsr, rfl⟩, ⟨.rol, rfl⟩, ⟨.ror, rfl⟩]

/-- Every memory form of a shift is the shift of its mode (R130). -/
theorem exec_eq_shiftMem {i : Instr} {k : ShiftKind} {m : Mode} (hi : i.mnemonic = k.mnemonic)
    (ho : i.operand = .memory m) (s : State) : exec i s = shiftMem k m s := by
  rw [exec_eq_meaning, hi, ho]
  cases k <;> rfl

/-- The exact result and the bit shifted off are those of the shift (R131 to R134). -/
theorem ShiftKind.eq_of_mem_rows {k : ShiftKind} {v r : Byte} {c out : Bool}
    (h : (k.mnemonic, r.toNat, out) ∈ [(.ASL, 2 * v.toNat % 256, v.getLsbD 7), (.LSR, v.toNat / 2, v.getLsbD 0),
      (.ROL, (2 * v.toNat + c.toNat) % 256, v.getLsbD 7), (.ROR, v.toNat / 2 + 128 * c.toNat, v.getLsbD 0)]) :
    r = k.result v c ∧ out = k.carryOut v := by
  rw [← BitVec.toNat_inj]
  cases k
  case asl => simpa [mnemonic, carryOut, toNat_result_asl] using h
  case lsr => simpa [mnemonic, carryOut, toNat_result_lsr] using h
  case rol => simpa [mnemonic, carryOut, toNat_result_rol] using h
  case ror => simpa [mnemonic, carryOut, toNat_result_ror] using h

/-- Settles O26: each form is A written with the shift's exact result, then C, Z and N. -/
theorem shiftsOfTheAccumulator : Obligations.ShiftsOfTheAccumulator := by
  intro i s result out hi
  obtain ⟨k, hexec, hresult, hout⟩ : ∃ k : ShiftKind, exec i s = shiftA k s ∧
      (k.result s.a (s.flag .C)).toNat = result ∧ k.carryOut s.a = out := by
    simp only [List.mem_cons, List.not_mem_nil, or_false, Prod.mk.injEq] at hi
    rcases hi with ⟨rfl, rfl, rfl⟩ | ⟨rfl, rfl, rfl⟩ | ⟨rfl, rfl, rfl⟩ | ⟨rfl, rfl, rfl⟩
    exacts [⟨.asl, rfl, toNat_result_asl, rfl⟩, ⟨.lsr, rfl, toNat_result_lsr, rfl⟩,
      ⟨.rol, rfl, toNat_result_rol, rfl⟩, ⟨.ror, rfl, toNat_result_ror, rfl⟩]
  exact ⟨_, hexec, hresult, (shiftFlags_carry _ k _ _).trans hout, znFrom_shiftFlags _ k _ _,
    (changesOnly_setReg s .A _).trans (changesOnly_shiftFlags _ k _ _)⟩

/-- Settles O27: the read-modify-write of the shift, by the region of its address, then C, Z and N on what it stored. -/
theorem shiftsOfMemory : Obligations.ShiftsOfMemory := by
  intro i m s hi ho
  have hjmp : i.mnemonic ≠ .JMP := fun hj => by simp [hj] at hi
  obtain ⟨k, hk⟩ := exists_shiftKind_of_mem hi
  obtain ⟨ea, hea⟩ := effAddr_ok_of_ne_jmp hjmp ho s
  rw [exec_eq_shiftMem hk ho, operandLength_of_mode ho, hk]
  refine ⟨ea, hea, orFault_modifyMode_ppu hea, fun v r out hread hrow => ?_⟩
  obtain ⟨rfl, rfl⟩ := ShiftKind.eq_of_mem_rows hrow
  refine ⟨fun hwritable => ?_, orFault_modifyMode_rom hea hread⟩
  obtain ⟨u, hexec, hstores⟩ := orFault_modifyMode_writable hea hread hwritable
  exact ⟨_, hexec, shiftFlags_carry u k v _, znFrom_shiftFlags u k v _,
    (hstores.changesFlags (changesOnly_shiftFlags u k v _)).advance _⟩

/-! ### Increment and decrement (R135 to R140) -/

/-- Every form of INC and DEC is the step of its mode by the function that gives the exact result (R135, R136). -/
theorem exec_eq_stepMem {i : Instr} {m : Mode} (hi : i.mnemonic ∈ [.INC, .DEC]) (ho : i.operand = .memory m)
    (s : State) : ∃ f : Byte → Byte, exec i s = stepMem f m s ∧ ∀ v r : Byte,
      (i.mnemonic, r.toNat) ∈ [(.INC, (v.toNat + 1) % 256), (.DEC, (v.toNat + 255) % 256)] → r = f v := by
  rw [exec_eq_meaning, ho]
  simp only [List.mem_cons, List.not_mem_nil, or_false] at hi
  rcases hi with hm | hm <;> rw [hm]
  · refine ⟨(· + 1#8), rfl, fun v r h => ?_⟩
    rw [← BitVec.toNat_inj, toNat_add_one]
    simpa using h
  · refine ⟨(· - 1#8), rfl, fun v r h => ?_⟩
    rw [← BitVec.toNat_inj, toNat_sub_one]
    simpa using h

/-- Settles O28: the read-modify-write of the step, by the region of its address, then Z and N on what it stored. -/
theorem incAndDecOfMemory : Obligations.IncAndDecOfMemory := by
  intro i m s hi ho
  have hjmp : i.mnemonic ≠ .JMP := fun hj => by simp [hj] at hi
  obtain ⟨f, hstep, hresult⟩ := exec_eq_stepMem hi ho s
  obtain ⟨ea, hea⟩ := effAddr_ok_of_ne_jmp hjmp ho s
  rw [hstep, operandLength_of_mode ho]
  refine ⟨ea, hea, orFault_modifyMode_ppu hea, fun v r hread hrow => ?_⟩
  obtain rfl := hresult v r hrow
  refine ⟨fun hwritable => ?_, orFault_modifyMode_rom hea hread⟩
  obtain ⟨u, hexec, hstores⟩ := orFault_modifyMode_writable hea hread hwritable
  exact ⟨_, hexec, znFrom_setZN u _, (hstores.changesFlags (changesOnly_setZN u _)).advance _⟩

/-- Settles O29: each is its register written with the exact result, then Z and N. -/
theorem registerStepsWrap : Obligations.RegisterStepsWrap := by
  intro s i r n hi
  obtain ⟨v, hexec, hv⟩ : ∃ v : Byte, exec i s = stepReg r v s ∧ v.toNat = n := by
    simp only [List.mem_cons, List.not_mem_nil, or_false, Prod.mk.injEq] at hi
    rcases hi with ⟨rfl, rfl, rfl⟩ | ⟨rfl, rfl, rfl⟩ | ⟨rfl, rfl, rfl⟩ | ⟨rfl, rfl, rfl⟩
    exacts [⟨_, rfl, toNat_add_one⟩, ⟨_, rfl, toNat_add_one⟩, ⟨_, rfl, toNat_sub_one⟩, ⟨_, rfl, toNat_sub_one⟩]
  have hreg : ((s.setReg r v).setZN v).reg r = v := by simp
  refine ⟨_, hexec, ?_, ?_, changesOnly_setReg_setZN s r v⟩ <;> rw [hreg]
  · exact hv
  · exact znFrom_setZN _ v

end Sys2Proof.Machine
end

-- Compare and bit test (`44_compare_bit.md`): CMP, CPX, CPY; BIT.
section
/-!
PROOF. The compares (R150 to R152, R154) and BIT (R153): each is a source read whose byte changes flags alone, so
its proof is the frame of those flags and the meaning of each.
-/

namespace Sys2Proof.Machine

/-! ### The instructions of a comparison or bit test -/

section
variable {i : Instr} {src : Src}

/-- Every form of CMP, CPX and CPY compares its register with its source (R154). -/
theorem exec_eq_compareFlags {r : Reg} (hi : (i.mnemonic, r) ∈ [(.CMP, .A), (.CPX, .X), (.CPY, .Y)])
    (ho : i.operand = src.operand) (s : State) : exec i s = withSrc src s (s.compareFlags (s.reg r)) := by
  simp only [List.mem_cons, List.not_mem_nil, or_false, Prod.mk.injEq] at hi
  rcases hi with ⟨hm, rfl⟩ | ⟨hm, rfl⟩ | ⟨hm, rfl⟩ <;> rw [exec_eq_meaning, hm, ho] <;> cases src <;> rfl

/-- Both forms of BIT test the byte of their source, which is in memory: BIT has no Immediate form (R153). -/
theorem exec_eq_bitFlags (hi : i.mnemonic = .BIT) (ho : i.operand = src.operand) (s : State) :
    exec i s = withSrc src s s.bitFlags := by
  cases src with
  | imm v =>
    have hformat : i.format = .imm := by rw [Instr.format, ho]; rfl
    have hmem := i.format_mem_formatsOf
    rw [hformat, hi] at hmem
    exact absurd hmem (by decide)
  | mem m =>
    rw [exec_eq_meaning, hi, ho]
    rfl

end

/-! ### CMP, CPX and CPY (R154) -/

theorem changesOnly_compareFlags (s : State) (r m : Byte) : ChangesOnly [] [.C, .Z, .N] 0 s (s.compareFlags r m) :=
  (changesOnly_setFlag s .C _).trans (changesOnly_setZN _ (r - m))

theorem compareFlags_carry_iff (s : State) (r m : Byte) :
    (s.compareFlags r m).flag .C = true ↔ m.toNat ≤ r.toNat := by
  simp

/-- Z tests the byte difference for zero (R154). -/
theorem compareFlags_zero_iff (s : State) (r m : Byte) : (s.compareFlags r m).flag .Z = true ↔ r = m := by
  have hdiff : (s.compareFlags r m).flag .Z = true ↔ r - m = 0#8 := by simp
  exact hdiff.trans sub_eq_zero

/-- N is the top bit of the byte difference, which as a number is the difference modulo 256 (R154). -/
theorem compareFlags_negative_iff (s : State) (r m : Byte) :
    (s.compareFlags r m).flag .N = true ↔ 128 ≤ (r.toNat + 256 - m.toNat) % 256 := by
  have hsub : (r.toNat + 256 - m.toNat) % 256 = (r - m).toNat := by
    have hm := m.isLt
    rw [BitVec.toNat_sub]
    omega
  have hflag : (s.compareFlags r m).flag .N = (r - m).msb := by simp [BitVec.msb_eq_getLsbD_last]
  rw [hsub, hflag, BitVec.msb_eq_decide, decide_eq_true_iff]

/-- Settles O30: the comparison with the byte read, then PC past the operand; its only fault is the read's. -/
theorem comparesSetCarryZeroNegative : Obligations.ComparesSetCarryZeroNegative := by
  intro i r src s hi ho
  rw [exec_eq_compareFlags hi ho, operandLength_of_src ho]
  refine ⟨fun m hread => ?_, fun k => withSrc_of_fault⟩
  exact ⟨_, withSrc_of_read hread, compareFlags_carry_iff s _ m, compareFlags_zero_iff s _ m,
    compareFlags_negative_iff s _ m, (changesOnly_compareFlags s _ m).advance _⟩

/-! ### BIT (R153) -/

theorem changesOnly_bitFlags (s : State) (m : Byte) : ChangesOnly [] [.Z, .N, .V] 0 s (s.bitFlags m) :=
  (changesOnly_setFlag s .Z _).trans ((changesOnly_setFlag _ .N _).trans (changesOnly_setFlag _ .V _))

/-- Z tests the conjunction `A & M` for zero, which is bit by bit (R153). -/
theorem bitFlags_zero_iff (s : State) (m : Byte) :
    (s.bitFlags m).flag .Z = true ↔ ∀ n, n < 8 → ¬ (s.a.getLsbD n = true ∧ m.getLsbD n = true) := by
  have hand : (s.bitFlags m).flag .Z = true ↔ s.a &&& m = 0#8 := by simp
  rw [hand, BitVec.eq_of_getLsbD_eq_iff]
  refine forall₂_congr fun n _ => ?_
  rw [BitVec.getLsbD_and, BitVec.getLsbD_zero, ← Bool.and_eq_true, Bool.not_eq_true]

theorem bitFlags_negative (s : State) (m : Byte) : (s.bitFlags m).flag .N = m.getLsbD 7 := by
  simp

theorem bitFlags_overflow (s : State) (m : Byte) : (s.bitFlags m).flag .V = m.getLsbD 6 := by
  simp

/-- Settles O31: the bit test of the byte read, then PC past the operand; its only fault is the read's. -/
theorem bitTestsMemoryAgainstA : Obligations.BitTestsMemoryAgainstA := by
  intro i src s hi ho
  rw [exec_eq_bitFlags hi ho, operandLength_of_src ho]
  refine ⟨fun m hread => ?_, fun k => withSrc_of_fault⟩
  exact ⟨_, withSrc_of_read hread, bitFlags_zero_iff s m, bitFlags_negative s m, bitFlags_overflow s m,
    (changesOnly_bitFlags s m).advance _⟩

end Sys2Proof.Machine
end

-- Branches, jumps, call and return (`45_branch_jump_subroutine.md`): the eight branches; JMP; JSR and RTS.
section
/-!
PROOF. The branches (R160 to R168) and JMP (R169) write PC alone, so they share one frame; JSR (R170) and RTS (R171)
are two pushes and two pops, then PC.
-/

namespace Sys2Proof.Machine

/-! ### PC written and nothing else (R13) -/

theorem setPc_frame (s : State) (w : Word) :
    SameRegsBut [] s (s.setPc w) ∧ SameFlagsBut [] s (s.setPc w) ∧ SameMemory s (s.setPc w) ∧
      (s.setPc w).sp = s.sp ∧ (s.setPc w).run = s.run ∧ (s.setPc w).log = s.log :=
  ⟨fun q _ => State.setPc_reg s w q, fun f _ => State.setPc_flag s w f, sameMemory_of_eq rfl rfl, rfl, rfl, rfl⟩

/-! ### Branches (R160 to R168, R94) -/

/-- A branch writes PC once: past the offset byte, plus the offset when it is taken (R160). -/
theorem branch_eq_setPc (c : Prop) [Decidable c] (off : Byte) (s : State) :
    branch (decide c) off s = .next (s.setPc (s.pc + 1#16 + if c then sext16 off else 0#16)) := by
  by_cases hc : c
  · rw [decide_eq_true hc, if_pos hc]
    rfl
  · rw [decide_eq_false hc, if_neg hc, BitVec.add_zero]
    rfl

/-- The word sum is the exact sum with the signed offset, modulo 65536: the extended offset is congruent to it (R94). -/
theorem branchSum_toNat (pc : Word) (off : Byte) (c : Prop) [Decidable c] :
    ((pc + 1#16 + if c then sext16 off else 0#16).toNat : Int) =
      (pc.toNat + 1 + if c then off.toInt else 0) % 65536 := by
  have hword : (pc + 1#16 + if c then sext16 off else 0#16) =
      BitVec.ofInt 16 (pc.toNat + 1 + if c then off.toInt else 0) := by
    have hpc : BitVec.ofInt 16 (pc.toNat + 1) = pc + 1#16 := by
      rw [BitVec.ofInt_add, BitVec.ofInt_natCast, BitVec.ofNat_toNat, BitVec.setWidth_eq]
      rfl
    rw [BitVec.ofInt_add, hpc, apply_ite (BitVec.ofInt 16)]
    rfl
  rw [hword, BitVec.toNat_ofInt]
  exact Int.toNat_of_nonneg (Int.emod_nonneg _ (by decide))

/-- Each mnemonic is the branch on its flag's value (R161 to R168). -/
theorem exec_eq_branch {i : Instr} {off : Byte} {f : Flag} {taken : Bool}
    (hi : (i, f, taken) ∈ [(Instr.bcc off, Flag.C, false), (.bcs off, .C, true), (.beq off, .Z, true),
      (.bne off, .Z, false), (.bmi off, .N, true), (.bpl off, .N, false), (.bvc off, .V, false), (.bvs off, .V, true)])
    (s : State) : exec i s = branch (decide (s.flag f = taken)) off s := by
  simp only [List.mem_cons, List.not_mem_nil, or_false, Prod.mk.injEq] at hi
  rcases hi with ⟨rfl, rfl, rfl⟩ | ⟨rfl, rfl, rfl⟩ | ⟨rfl, rfl, rfl⟩ | ⟨rfl, rfl, rfl⟩ | ⟨rfl, rfl, rfl⟩ |
    ⟨rfl, rfl, rfl⟩ | ⟨rfl, rfl, rfl⟩ | ⟨rfl, rfl, rfl⟩ <;> simp only [Bool.decide_eq_true, Bool.decide_eq_false] <;> rfl

/-- Settles O32: each of the eight is the branch on its flag, which writes PC alone. -/
theorem branchesTestOneFlag : Obligations.BranchesTestOneFlag := by
  intro s off i f taken hi
  exact ⟨_, (exec_eq_branch hi s).trans (branch_eq_setPc _ off s), branchSum_toNat s.pc off _, setPc_frame s _⟩

/-! ### JMP (R169) -/

/-- Both forms of JMP jump to the address of their mode (R169). -/
theorem exec_eq_jump {i : Instr} {m : Mode} (hi : i.mnemonic = .JMP) (ho : i.operand = .memory m) (s : State) :
    exec i s = jump m s := by
  rw [exec_eq_meaning, hi, ho]
  rfl

/-- Settles O33: PC is written with the address the resolver gives, and a fault is the pointer's. -/
theorem jumpsSetPcOnly : Obligations.JumpsSetPcOnly := by
  intro s
  refine ⟨fun i m target hi ho hea => ?_, fun _ => rfl, fun ptr k hea => ⟨effAddr_ppuFault hea, ?_⟩⟩
  · rw [exec_eq_jump hi ho, jump, hea]
    exact ⟨_, orFault_ok _ _ _, rfl, setPc_frame s target⟩
  · rw [exec_eq_jump (m := .ind ptr) rfl rfl, jump, hea]
    exact faultsWith_raise s k

/-! ### JSR and RTS (R170, R171) -/

/-- The state after JSR: the address of its last byte pushed, PC at the target (R170). -/
def called (s : State) (target : Word) : State :=
  (pushed (pushed s (hi8 (s.pc + 1#16))) (lo8 (s.pc + 1#16))).setPc target

/-- The word two pops return (R44). -/
def topWord (s : State) : Word := join16 (topByte (popped s)) (topByte s)

/-- The state after RTS: two pops, PC one past the popped word (R171). -/
def returned (s : State) : State := (popped (popped s)).setPc (topWord s + 1#16)

theorem exec_jsr (s : State) (target : Word) : exec (.jsr target) s = .next (called s target) :=
  callSub_eq target s

theorem exec_rts (s : State) : exec .rts s = .next (returned s) :=
  returnSub_eq s

@[simp] theorem called_sp (s : State) (target : Word) : (called s target).sp = s.sp - 2#8 :=
  sp_sub2 s.sp

@[simp] theorem called_reg (s : State) (target : Word) (q : Reg) : (called s target).reg q = s.reg q := by
  simp [called]

@[simp] theorem called_flag (s : State) (target : Word) (f : Flag) : (called s target).flag f = s.flag f := by
  simp [called]

@[simp] theorem called_log (s : State) (target : Word) :
    (called s target).log = s.log ++ (if s.sp.toNat ≤ 1 then [.stackWrap .push] else []) :=
  push2_log s (hi8 (s.pc + 1#16)) (lo8 (s.pc + 1#16))

theorem called_read (s : State) (target addr : Word) : memRead (called s target) addr =
    if addr.toNat < 0x2000 ∧ addr.toNat % 0x0800 = 0x0100 + s.sp.toNat then .ok (hi8 (s.pc + 1#16))
    else if addr.toNat < 0x2000 ∧ addr.toNat % 0x0800 = 0x0100 + (s.sp - 1#8).toNat then .ok (lo8 (s.pc + 1#16))
    else memRead s addr :=
  (memRead_congr rfl rfl addr).trans (pushed_pushed_read s (hi8 (s.pc + 1#16)) (lo8 (s.pc + 1#16)) addr)

@[simp] theorem returned_sp (s : State) : (returned s).sp = s.sp + 2#8 :=
  sp_add2 s.sp

@[simp] theorem returned_reg (s : State) (q : Reg) : (returned s).reg q = s.reg q := by
  simp [returned]

@[simp] theorem returned_flag (s : State) (f : Flag) : (returned s).flag f = s.flag f := by
  simp [returned]

/-- The two bytes lie at the two SP values above the present one, the wrap included (R43, R44). -/
theorem topWord_toNat (s : State) : (topWord s).toNat =
    256 * (s.ram.get (0x0100 + (s.sp.toNat + 2) % 256)).toNat +
      (s.ram.get (0x0100 + (s.sp.toNat + 1) % 256)).toNat := by
  have hlo : (s.sp + 1#8).toNat = (s.sp.toNat + 1) % 256 := BitVec.toNat_add s.sp 1#8
  have hhi : (s.sp + 1#8 + 1#8).toNat = (s.sp.toNat + 2) % 256 := by
    rw [sp_add2]
    exact BitVec.toNat_add s.sp 2#8
  rw [topWord, join16_toNat, topByte, topByte, popped_ram, popped_sp, hlo, hhi]

/-- The word a JSR pushed is the one on top, wherever PC has moved since (R44). -/
theorem topWord_called_advance (s : State) (target : Word) (n : Nat) :
    topWord ((called s target).advance n) = s.pc + 1#16 := by
  have hword : topWord (pushed (pushed s (hi8 (s.pc + 1#16))) (lo8 (s.pc + 1#16))) = s.pc + 1#16 := by
    rw [topWord, topByte_popped_pushed_pushed, topByte_pushed, join16_hi8_lo8]
  exact hword

/-- Settles O34: two pushes, which cannot fault, then PC at the target. -/
theorem jsrPushesTheReturnAddress : Obligations.JsrPushesTheReturnAddress :=
  fun s target => ⟨called s target, exec_jsr s target, rfl, called_sp s target, called_read s target,
    called_log s target, fun q _ => called_reg s target q, fun f _ => called_flag s target f, rfl⟩

/-- Settles O35: two pops, which cannot fault, then PC one past the popped word. -/
theorem rtsPopsAndAddsOne : Obligations.RtsPopsAndAddsOne := by
  intro s
  refine ⟨returned s, exec_rts s, ?_, returned_sp s, pop2_log s, sameMemory_of_eq rfl rfl,
    fun q _ => returned_reg s q, fun f _ => returned_flag s f, rfl⟩
  rw [← topWord_toNat]
  exact BitVec.toNat_add (topWord s) 1#16

/-- Settles O36: RTS finds the word JSR pushed on top, and PC and SP are where two pushes and two pops leave them. -/
theorem jsrThenRtsReturnsAfterTheCall : Obligations.JsrThenRtsReturnsAfterTheCall := by
  intro s target
  refine ⟨called s target, returned ((called s target).advance 1), exec_jsr s target, exec_rts _, ?_, ?_,
    fun q _ => ?_, fun f _ => ?_⟩
  · rw [returned, State.setPc_pc, topWord_called_advance, BitVec.add_assoc]
    rfl
  · rw [returned_sp, State.advance_sp, called_sp, BitVec.sub_add_cancel]
  · rw [returned_reg, State.advance_reg, called_reg]
  · rw [returned_flag, State.advance_flag, called_flag]

end Sys2Proof.Machine
end

-- Stack, RTI, flags, NOP and BRK (`46_stack_rti_flags_nop_brk.md`): PHA, PHP, PLA, PLP, RTI; CLC to CLV; NOP, BRK.
section
/-!
PROOF. PHA and PHP are one push (R180, R182); PLA, PLP and RTI are the pops of `popped`, whose bytes then go to A, P and
PC (R181, R183, R184); a flag instruction is one write of its flag (R185 to R191), NOP none (R198), and BRK the write
of the run state (R199).
-/

namespace Sys2Proof.Machine

/-! ### The status byte pushed and pulled (R182, R183) -/

/-- PHP forces Break and Break2 in the byte it pushes and takes every other bit from P (R182). -/
theorem flagOf_pushedStatus (p : Byte) (f : Flag) :
    flagOf (pushedStatus p) f = (f == .B || f == .B2 || flagOf p f) := by
  cases f <;> simp [pushedStatus, flagOf, Flag.bit]

/-- A byte with those flags is the one PHP pushes: a status byte is its eight flags (R11, R182). -/
theorem eq_pushedStatus {v p : Byte} (h : ∀ f : Flag, flagOf v f = (f == .B || f == .B2 || flagOf p f)) :
    v = pushedStatus p :=
  eq_of_flagOf_eq fun f => (h f).trans (flagOf_pushedStatus p f).symm

/-- But for Break and Break2 the status PLP and RTI restore has the flags of the popped byte (R183, R184). -/
theorem flagOf_pulledStatus_of_ne {f : Flag} (hB : f ≠ .B) (hB2 : f ≠ .B2) (b : Byte) :
    flagOf (pulledStatus b) f = flagOf b f := by
  cases f
  case B => exact absurd rfl hB
  case B2 => exact absurd rfl hB2
  case C | Z | I | D | V | N => simp [pulledStatus, flagOf, Flag.bit]

/-! ### PHA and PHP (R180, R182) -/

/-- Both push one byte: A, or the status with Break and Break2 set. -/
theorem exec_eq_push {s : State} {i : Instr} {v : Byte} (h : (i = .pha ∧ v = s.a) ∨
    (i = .php ∧ ∀ f : Flag, flagOf v f = (f == .B || f == .B2 || s.flag f))) : exec i s = push v s := by
  rcases h with ⟨rfl, rfl⟩ | ⟨rfl, hv⟩
  · rfl
  · rw [eq_pushedStatus hv]
    rfl

/-- Settles O37: both are one push, which cannot fault. -/
theorem phaAndPhpPushOneByte : Obligations.PhaAndPhpPushOneByte := fun s _ v hi =>
  ⟨pushed s v, (exec_eq_push hi).trans (push_eq v s), pushed_read s v, pushed_sp s v, pushed_log_eq s v,
    fun q _ => pushed_reg s v q, fun f _ => pushed_flag s v f, pushed_pc s v, pushed_run s v⟩

/-! ### PLA, PLP and RTI (R181, R183, R184) -/

/-- A pop reads the byte one above SP, modulo 256 (R43). -/
theorem topByte_eq (s : State) : topByte s = s.ram.get (0x0100 + (s.sp.toNat + 1) % 256) := by
  rw [topByte, toNat_add_one]

/-- The word under the top byte lies two and three above SP, modulo 256 (R184). -/
theorem topWord_popped_toNat (s : State) : (topWord (popped s)).toNat =
    256 * (s.ram.get (0x0100 + (s.sp.toNat + 3) % 256)).toNat +
      (s.ram.get (0x0100 + (s.sp.toNat + 2) % 256)).toNat := by
  rw [topWord_toNat, popped_ram, popped_sp, toNat_add_one, Nat.mod_add_mod, Nat.mod_add_mod]

/-- The state after PLA: one pop, A written with its byte, Z and N from it (R181). -/
def pulledA (s : State) : State := ((popped s).setReg .A (topByte s)).setZN (topByte s)

/-- The state after PLP: one pop, the status restored from its byte (R183). -/
def pulledP (s : State) : State := (popped s).setP (pulledStatus (topByte s))

/-- The state after RTI: three pops, the status from the first byte, PC the word of the other two (R184). -/
def interruptReturned (s : State) : State :=
  ((popped (popped (popped s))).setP (pulledStatus (topByte s))).setPc (topWord (popped s))

theorem exec_pla (s : State) : exec .pla s = .next (pulledA s) :=
  pullA_eq s

theorem exec_plp (s : State) : exec .plp s = .next (pulledP s) :=
  pullP_eq s

theorem exec_rti (s : State) : exec .rti s = .next (interruptReturned s) :=
  returnInterrupt_eq s

@[simp] theorem pulledP_reg (s : State) (q : Reg) : (pulledP s).reg q = s.reg q := by
  simp [pulledP]

@[simp] theorem interruptReturned_reg (s : State) (q : Reg) : (interruptReturned s).reg q = s.reg q := by
  simp [interruptReturned]

@[simp] theorem interruptReturned_sp (s : State) : (interruptReturned s).sp = s.sp + 3#8 := by
  have hsp : (interruptReturned s).sp = s.sp + 1#8 + 1#8 + 1#8 := rfl
  rw [hsp, sp_add2, BitVec.add_assoc]
  rfl

/-- Settles O38: after the pop, A is written with Z and N as a transfer writes its register. -/
theorem plaPullsIntoA : Obligations.PlaPullsIntoA := by
  intro s
  obtain ⟨hreg, hflag, hmem, -⟩ := changesOnly_setReg_setZN (popped s) .A (topByte s)
  exact ⟨pulledA s, exec_pla s, topByte_eq s, znFrom_setZN _ (topByte s), rfl, popped_log_eq s, hmem,
    fun q hq => (hreg q hq).trans (popped_reg s q), hflag, rfl, rfl⟩

/-- Settles O39: one pop, then P written with the pulled status. -/
theorem plpRestoresTheStatus : Obligations.PlpRestoresTheStatus := by
  intro s
  rw [← topByte_eq]
  exact ⟨pulledP s, exec_plp s, flagOf_pulledStatus_B _, flagOf_pulledStatus_B2 _,
    fun f hB hB2 => flagOf_pulledStatus_of_ne hB hB2 _, rfl, popped_log_eq s, sameMemory_of_eq rfl rfl,
    fun q _ => pulledP_reg s q, rfl, rfl⟩

/-- Settles O40: three pops, of which one wraps at most, then P as PLP writes it and PC the popped word itself. -/
theorem rtiRestoresStatusAndPc : Obligations.RtiRestoresStatusAndPc := by
  intro s
  rw [← topByte_eq]
  exact ⟨interruptReturned s, exec_rti s, flagOf_pulledStatus_B _, flagOf_pulledStatus_B2 _,
    fun f hB hB2 => flagOf_pulledStatus_of_ne hB hB2 _, topWord_popped_toNat s, interruptReturned_sp s, pop3_log s,
    sameMemory_of_eq rfl rfl, fun q _ => interruptReturned_reg s q, rfl⟩

/-! ### The flag instructions (R185 to R191) -/

/-- Settles O41: each of the seven is the write of its flag. -/
theorem flagInstructionsWriteOneFlag : Obligations.FlagInstructionsWriteOneFlag := by
  intro s i f b hi
  have hexec : exec i s = .next (s.setFlag f b) := by
    simp only [List.mem_cons, List.not_mem_nil, or_false, Prod.mk.injEq] at hi
    rcases hi with ⟨rfl, rfl, rfl⟩ | ⟨rfl, rfl, rfl⟩ | ⟨rfl, rfl, rfl⟩ | ⟨rfl, rfl, rfl⟩ | ⟨rfl, rfl, rfl⟩ |
      ⟨rfl, rfl, rfl⟩ | ⟨rfl, rfl, rfl⟩ <;> rfl
  have hflag : (s.setFlag f b).flag f = b := by simp
  exact ⟨_, hexec, hflag, changesOnly_setFlag s f b⟩

/-! ### NOP and BRK (R198, R199) -/

/-- The byte 0xEA at PC is fetched as NOP, which has no operand byte to read. -/
theorem fetchInstr_of_memRead_nop {s : State} (h : memRead s s.pc = .ok 0xEA#8) :
    fetchInstr s = .ok (.nop, s.advance 1) :=
  fetchInstr_of_decode (operands := []) (rest := []) h rfl rfl

/-- Settles O42: NOP answers the state it is given, and its step is the fetch alone. -/
theorem nopChangesOnlyPc : Obligations.NopChangesOnlyPc :=
  ⟨fun _ => rfl, fun _ hr h => step_of_fetchInstr hr (fetchInstr_of_memRead_nop h)⟩

/-- Halting, with PC wherever it was moved to, changes only the run state and PC (R199). -/
theorem halt_setPc_frame (s : State) (w : Word) :
    (s.setPc w).halt.run = .halted ∧ SameRegsBut [] s (s.setPc w).halt ∧ SameFlagsBut [] s (s.setPc w).halt ∧
      SameMemory s (s.setPc w).halt ∧ (s.setPc w).halt.sp = s.sp ∧ (s.setPc w).halt.log = s.log ∧
      (s.setPc w).halt.pc = w := by
  obtain ⟨hreg, hflag, hmem, hsp, -, hlog⟩ := setPc_frame s w
  exact ⟨rfl, fun q hq => (State.halt_reg _ q).trans (hreg q hq), hflag, hmem, hsp, hlog, rfl⟩

/-- Settles O43: BRK halts where the fetch left PC, and its step is that fetch and the halt. -/
theorem brkOnlyHalts : Obligations.BrkOnlyHalts :=
  ⟨fun s => ⟨_, rfl, halt_setPc_frame s s.pc⟩, fun s hr h => ⟨_, step_of_memRead_zero hr h, halt_setPc_frame s _⟩⟩

end Sys2Proof.Machine
end

-- Exceptions (`60_exceptions.md`): what reaches memory and the log, the faults of the fetch, and a step that ends Faulted.
section
/-!
PROOF. Which instructions reach RAM and the log (R42, R203, R207), the faults of the fetch accesses (R202, R206), and
what a step that ends Faulted has done (R200, R204, R205).
-/

namespace Sys2Proof.Machine

/-! ### What an instruction does to RAM and to the log (R42, R203, R207) -/

/-- From 0x2000 up a read sees ROM at most (R34 to R36). -/
theorem memRead_eq_of_rom_eq {s t : State} {a : Word} (ha : 0x2000 ≤ a.toNat) (ho : t.rom = s.rom) :
    memRead t a = memRead s a := by
  rcases Nat.lt_or_ge a.toNat 0x4000 with hppu | hppu
  · rw [memRead_ppu ⟨ha, hppu⟩, memRead_ppu ⟨ha, hppu⟩]
  rcases Nat.lt_or_ge a.toNat 0x8000 with hign | hrom
  · rw [memRead_ignored ⟨hppu, hign⟩, memRead_ignored ⟨hppu, hign⟩]
  · rw [memRead_rom hrom, memRead_rom hrom, ho]

/-- The instructions that may write a byte of memory: stores, read-modify-writes and pushes. -/
def memoryWriters : List Mnemonic := [.STA, .STX, .STY, .ASL, .LSR, .ROL, .ROR, .INC, .DEC, .PHA, .PHP, .JSR]

/-- The instructions that pop: they may log a wrap of SP and write no memory (R43). -/
def stackReaders : List Mnemonic := [.PLA, .PLP, .RTS, .RTI]

theorem log_preserved : AccessPreserved fun s t => s.log <+: t.log where
  trans h h' := h.trans h'
  setPc _ _ := List.prefix_rfl
  write := memWrite_log

theorem SrcEffect.ram_log_eq {i : Instr} {f : Byte → State} {s t : State} (h : SrcEffect i f s t)
    (hf : ∀ v, (f v).ram = s.ram ∧ (f v).log = s.log) : t.ram = s.ram ∧ t.log = s.log := by
  obtain ⟨_, v, -, -, rfl⟩ := h
  exact hf v

theorem BranchEffect.ram_log_eq {i : Instr} {cond : Bool} {s t : State} (h : BranchEffect i cond s t) :
    t.ram = s.ram ∧ t.log = s.log := by
  obtain ⟨_, -, rfl⟩ := h
  exact ⟨rfl, rfl⟩

/-- Everything a completed instruction can do to RAM and the log: nothing, or a pop's entries in the log, or a write
to memory with what it logs. -/
theorem Effect.ram_log_cases {i : Instr} {s t : State} (h : Effect i s t) :
    (t.ram = s.ram ∧ t.log = s.log) ∨
    (t.ram = s.ram ∧ s.log <+: t.log ∧ i.mnemonic ∈ stackReaders) ∨
    (s.log <+: t.log ∧ i.mnemonic ∈ memoryWriters) := by
  have hR := log_preserved
  unfold Effect at h
  cases hm : i.mnemonic <;> simp only [hm] at h
  case LDA | LDX | LDY | ADC | SBC | AND | ORA | EOR | CMP | CPX | CPY | BIT =>
    exact .inl (h.ram_log_eq fun v => by simp)
  case BCC | BCS | BEQ | BNE | BMI | BPL | BVC | BVS => exact .inl h.ram_log_eq
  case JMP => obtain ⟨_, _, -, -, rfl⟩ := h; exact .inl ⟨rfl, rfl⟩
  case TAX | TAY | TXA | TYA | TSX | TXS | INX | INY | DEX | DEY | CLC | SEC | CLD | SED | CLI | SEI | CLV | NOP | BRK =>
    subst h; exact .inl ⟨rfl, rfl⟩
  case PLA | PLP => subst h; exact .inr (.inl ⟨rfl, popped_log s, by decide⟩)
  case RTS => subst h; exact .inr (.inl ⟨rfl, (popped_log s).trans (popped_log _), by decide⟩)
  case RTI =>
    subst h; exact .inr (.inl ⟨rfl, ((popped_log s).trans (popped_log _)).trans (popped_log _), by decide⟩)
  case STA | STX | STY => exact .inr (.inr ⟨h.preserves hR, by decide⟩)
  case ASL | LSR | ROL | ROR =>
    exact .inr (.inr ⟨h.preserves hR (fun _ _ => List.prefix_rfl) fun _ _ _ => List.prefix_rfl, by decide⟩)
  case INC | DEC => exact .inr (.inr ⟨h.preserves hR fun _ _ => List.prefix_rfl, by decide⟩)
  case PHA | PHP => subst h; exact .inr (.inr ⟨pushed_log s _, by decide⟩)
  case JSR =>
    obtain ⟨_, -, rfl⟩ := h
    exact .inr (.inr ⟨(pushed_log s (hi8 (s.pc + 1#16))).trans (pushed_log _ (lo8 (s.pc + 1#16))), by decide⟩)

/-- The same of every instruction: one that faults leaves RAM and the log (R205 b and c). -/
theorem exec_ram_log_cases {i : Instr} {s t : State} (h : exec i s = .next t) :
    (t.ram = s.ram ∧ t.log = s.log) ∨
    (t.ram = s.ram ∧ s.log <+: t.log ∧ i.mnemonic ∈ stackReaders) ∨
    (s.log <+: t.log ∧ i.mnemonic ∈ memoryWriters) := by
  rcases exec_effect h with ⟨k, rfl, -⟩ | he
  · exact .inl ⟨rfl, rfl⟩
  · exact he.ram_log_cases

/-- A log that changed, where entries are only appended, grew by at least one. -/
theorem exists_entries_of_prefix {l l' : List Diag} (h : l <+: l') (hne : l' ≠ l) : ∃ d more, l' = l ++ d :: more := by
  obtain ⟨tail, rfl⟩ := h
  cases tail with
  | nil => exact absurd l.append_nil hne
  | cons d more => exact ⟨d, more, rfl⟩

/-- An address that reads otherwise after an instruction lies in the RAM window, since no instruction writes ROM. -/
theorem exec_read_ne_ram {i : Instr} {s t : State} (h : exec i s = .next t) {addr : Word}
    (hne : memRead t addr ≠ memRead s addr) : addr.toNat < 0x2000 := by
  by_contra hram
  exact hne (memRead_eq_of_rom_eq (Nat.le_of_not_lt hram) (exec_rom_eq h))

/-- Settles O49: by the three things an instruction can do to RAM and the log, of which only a write changes RAM and
only the other two the log. -/
theorem onlyListedInstructionsWriteMemory : Obligations.OnlyListedInstructionsWriteMemory := by
  intro i s t h
  have keeps (hram : t.ram = s.ram) (addr : Word) : memRead t addr = memRead s addr :=
    memRead_congr hram (exec_rom_eq h) addr
  rcases exec_ram_log_cases h with ⟨hram, hlog⟩ | ⟨hram, hlog, hm⟩ | ⟨hlog, hm⟩
  · exact ⟨fun addr hne => absurd (keeps hram addr) hne, fun hne => absurd hlog hne⟩
  · exact ⟨fun addr hne => absurd (keeps hram addr) hne,
      fun hne => ⟨exists_entries_of_prefix hlog hne, List.mem_append_right memoryWriters hm⟩⟩
  · exact ⟨fun addr hne => ⟨exec_read_ne_ram h hne, hm⟩,
      fun hne => ⟨exists_entries_of_prefix hlog hne, List.mem_append_left stackReaders hm⟩⟩

/-! ### The faults of the fetch (R202, R206) -/

section
variable {s : State} {k : FaultKind}

theorem step_of_fetchInstr_error {u : State} (hr : s.run = .running) (h : fetchInstr s = .error u) :
    step s = .next u := by
  simp only [step, hr, h]

theorem fetchInstr_of_opcode_fault (h : memRead s s.pc = .error k) : fetchInstr s = .error (s.raise k) := by
  simp only [fetchInstr, h]

theorem fetchInstr_of_operand_fault {b : Byte} (hb : memRead s s.pc = .ok b)
    (h : readBytes s (s.pc + 1#16) (operandCount b) = .error k) :
    fetchInstr s = .error ((s.advance 1).raise k) := by
  have ho : readBytes (s.advance 1) (s.advance 1).pc (operandCount b) = .error k :=
    (readBytes_congr (by rfl) (by rfl) _ _).trans h
  simp only [fetchInstr, hb, ho]

end

/-- A fault taken with PC moved, as the statements say it: memory and log are as before the move (R205 b and c). -/
theorem faultsWith_raise_advance (s : State) (n : Nat) (k : FaultKind) :
    FaultsWith k s (.next ((s.advance n).raise k)) :=
  ⟨_, rfl, rfl, sameMemory_of_eq rfl rfl, rfl⟩

/-- Settles O8: the opcode read faults in the state it began in, an operand read with PC past the opcode byte. -/
theorem fetchFaultsEndTheStep : Obligations.FetchFaultsEndTheStep := by
  refine fun s hr => ⟨fun hppu => ?opcode, fun b k hb ho => ⟨readBytes_ppuFault _ _ ho, ?operand⟩⟩
  case opcode =>
    rw [step_of_fetchInstr_error hr (fetchInstr_of_opcode_fault (memRead_ppu hppu s))]
    exact faultsWith_raise s _
  case operand =>
    rw [step_of_fetchInstr_error hr (fetchInstr_of_operand_fault hb ho)]
    exact faultsWith_raise_advance s 1 k

/-! ### A step that ends Faulted (R200, R204, R205) -/

/-- A completed instruction that began Running ends Running or, after BRK, Halted. -/
theorem Effect.run_ne_faulted {i : Instr} {s t : State} (h : Effect i s t) (hr : s.run = .running) (k : FaultKind) :
    t.run ≠ .faulted k := by
  by_cases hb : i.mnemonic = .BRK
  · simp only [Effect, hb] at h
    subst h
    simp
  · simp [h.run_eq hb, hr]

/-- An instruction that ends Faulted entered a fault of one of its data accesses. -/
theorem exec_faulted {i : Instr} {s t : State} {k : FaultKind} (hr : s.run = .running) (h : exec i s = .next t)
    (ht : t.run = .faulted k) : t = s.raise k ∧ DataFault k := by
  rcases exec_effect h with ⟨k', rfl, hk⟩ | he
  · cases ht
    exact ⟨rfl, hk⟩
  · exact absurd ht (he.run_ne_faulted hr k)

/-- A step that ends Faulted is a fault entry, before or after PC passed the opcode byte, by the decode of the byte at
PC or by an access. -/
theorem step_faulted {s t : State} {k : FaultKind} (hr : s.run = .running) (h : step s = .next t)
    (ht : t.run = .faulted k) : (t = s.raise k ∨ t = (s.advance 1).raise k) ∧
      ((∃ b, memRead s s.pc = .ok b ∧ k = .illegalOpcode b) ∨ DataFault k) := by
  rcases fetchInstr_cases s with ⟨i, hf⟩ | ⟨k', hb, hf⟩ | ⟨b, k', -, ho, hf⟩ | ⟨b, hb, hf⟩
  · rw [step_of_fetchInstr hr hf] at h
    obtain ⟨rfl, hk⟩ := exec_faulted (s := s.advance 1) hr h ht
    exact ⟨.inr rfl, .inr hk⟩
  all_goals
    rw [step_of_fetchInstr_error hr hf] at h
    cases h
    cases ht
  · exact ⟨.inl rfl, .inr (memRead_ppuFault hb).dataFault⟩
  · exact ⟨.inr rfl, .inr (readBytes_ppuFault _ _ ho).dataFault⟩
  · exact ⟨.inr rfl, .inl ⟨b, hb, rfl⟩⟩

/-- Settles O51: a fault entry changes the run state only, and its kind is that of the decode or of an access. -/
theorem executionFaultsAreClean : Obligations.ExecutionFaultsAreClean := by
  intro s t k hr h ht
  obtain ⟨rfl | rfl, hk⟩ := step_faulted hr h ht
  · exact ⟨sameMemory_of_eq rfl rfl, rfl, hk⟩
  · exact ⟨sameMemory_of_eq rfl rfl, rfl, hk⟩

end Sys2Proof.Machine
end

-- Reset and hazards (`70_reset_and_hazards.md`): the host's load, reset, run with its hook, and load_and_run.
section
/-!
PROOF. The host's operations: the state after a load (R221), the reset and its vector (R222), the loop of `run`
(R223, R227), the hook (R224), and load_and_run (R225).
-/

namespace Sys2Proof.Machine

/-! ### Reset (R222) -/

/-- The vector is two ordinary reads of ROM (R45, R222). -/
theorem memRead16_resetVector (s : State) : memRead16 s 0xFFFC#16 = .ok (vectorTarget s) :=
  memRead16_of_reads (memRead_rom (by decide) s) (memRead_rom (by decide) s)

/-- A reset leaves both memories. -/
theorem memRead_hostReset (s : State) (addr : Word) : memRead (hostReset s) addr = memRead s addr :=
  memRead_congr rfl rfl addr

/-- Settles O53: every field but PC is the constant or the old value the reset writes. -/
theorem hostResetValues : Obligations.HostResetValues :=
  fun s => ⟨rfl, rfl, rfl, rfl, rfl, memRead16_resetVector s, rfl, rfl, rfl, rfl⟩

/-! ### Load (R221) -/

/-- The state after a load that is not refused (R221). -/
def loaded (s : State) (program : List Byte) : State := { s with rom := loadedRom s.rom program }

theorem hostLoad_of_fits {program : List Byte} (h : program.length ≤ 0x7FFC) (s : State) :
    hostLoad program s = some (loaded s program) :=
  if_pos h

theorem hostLoad_of_long {program : List Byte} (h : 0x7FFC < program.length) (s : State) :
    hostLoad program s = none :=
  if_neg (Nat.not_le_of_lt h)

theorem loaded_reg (s : State) (program : List Byte) (q : Reg) : (loaded s program).reg q = s.reg q := by
  cases q <;> rfl

/-- A read of the ROM window by the number of its cell (R36). -/
theorem memRead_romCell {addr : Word} {j : Nat} (h : addr.toNat = 0x8000 + j) (s : State) :
    memRead s addr = .ok (s.rom.get j) := by
  rw [memRead_rom (by omega), h, Nat.add_sub_cancel_left]

section
variable (s : State) (program : List Byte)

/-- What the ROM window reads as after a load: the vector, the image, and the old bytes. -/
theorem memRead_loaded_romCell {addr : Word} {j : Nat} (h : addr.toNat = 0x8000 + j) :
    memRead (loaded s program) addr =
      .ok (if j = 0x7FFD then 0x80#8 else if j = 0x7FFC then 0x00#8
        else if hj : j < program.length then program[j] else s.rom.get j) :=
  (memRead_romCell h _).trans (congrArg _ (loadedRom_get s.rom program j))

/-- The image ends below the vector, so each of its bytes reads back (R221). -/
theorem memRead_loaded_image (hl : program.length ≤ 0x7FFC) (i : Nat) (h : i < program.length) :
    memRead (loaded s program) (BitVec.ofNat 16 (0x8000 + i)) = .ok program[i] := by
  have hi : (BitVec.ofNat 16 (0x8000 + i)).toNat = 0x8000 + i :=
    (BitVec.toNat_ofNat _ _).trans (Nat.mod_eq_of_lt (by omega))
  rw [memRead_loaded_romCell s program hi, if_neg (by omega), if_neg (by omega), dif_pos h]

theorem memRead_loaded_vector :
    memRead (loaded s program) 0xFFFC#16 = .ok 0x00#8 ∧ memRead (loaded s program) 0xFFFD#16 = .ok 0x80#8 := by
  rw [memRead_loaded_romCell s program (j := 0x7FFC) rfl, memRead_loaded_romCell s program (j := 0x7FFD) rfl]
  exact ⟨rfl, rfl⟩

/-- A load leaves every address outside the image and the vector. -/
theorem memRead_loaded_of_ne {addr : Word}
    (himage : ¬ (0x8000 ≤ addr.toNat ∧ addr.toNat < 0x8000 + program.length)) (hlo : addr ≠ 0xFFFC#16)
    (hhi : addr ≠ 0xFFFD#16) : memRead (loaded s program) addr = memRead s addr := by
  by_cases hrom : 0x8000 ≤ addr.toNat
  · obtain ⟨j, hj⟩ := Nat.exists_eq_add_of_le hrom
    have hjlo : j ≠ 0x7FFC := by bv_omega
    have hjhi : j ≠ 0x7FFD := by bv_omega
    rw [memRead_loaded_romCell s program hj, if_neg hjhi, if_neg hjlo, dif_neg (by omega), memRead_romCell hj]
  · cases hr : region addr
    case rom => exact absurd ((region_rom_iff addr).1 hr) hrom
    case ram | ppu | ignored => simp only [memRead, hr, loaded]

end

/-- Settles O54: a load replaces ROM alone, by a memory whose cells are known one by one. -/
theorem loadFillsRomAndTheVector : Obligations.LoadFillsRomAndTheVector := by
  refine fun s program => ⟨fun hl => ?_, fun hl => hostLoad_of_long hl s⟩
  obtain ⟨hlo, hhi⟩ := memRead_loaded_vector s program
  exact ⟨loaded s program, hostLoad_of_fits hl s, memRead_loaded_image s program hl, hlo, hhi,
    fun addr => memRead_loaded_of_ne s program, fun q _ => loaded_reg s program q, fun _ _ => rfl, rfl, rfl, rfl, rfl,
    rfl⟩

/-! ### Load, reset, run (R225) -/

/-- The vector a load writes is LOAD_BASE. -/
theorem vectorTarget_loaded (s : State) (program : List Byte) : vectorTarget (loaded s program) = 0x8000#16 := by
  obtain ⟨hlo, hhi⟩ := memRead_loaded_vector s program
  have hv := memRead16_of_reads hlo hhi
  rw [memRead16_resetVector] at hv
  exact Except.ok.inj hv

theorem loadAndRun_of_hostLoad {s t : State} {program : List Byte} (h : hostLoad program s = some t)
    (hook : Option Hook) (fuel : Nat) : loadAndRun hook fuel program s = hostRun hook fuel (hostReset t) := by
  simp only [loadAndRun, h]

theorem loadAndRun_of_refused {s : State} {program : List Byte} (h : hostLoad program s = none)
    (hook : Option Hook) (fuel : Nat) : loadAndRun hook fuel program s = none := by
  simp only [loadAndRun, h]

/-- Settles O55: the reset takes PC from the loaded vector and reads no memory but that. -/
theorem loadThenResetStartsTheImage : Obligations.LoadThenResetStartsTheImage := by
  refine fun s program hook fuel => ⟨fun hl => ?_, fun hl => loadAndRun_of_refused (hostLoad_of_long hl s) hook fuel⟩
  have hload := hostLoad_of_fits hl s
  have hpc : (hostReset (loaded s program)).pc = 0x8000#16 := vectorTarget_loaded s program
  refine ⟨loaded s program, hload, hpc, rfl, fun i hi => ?_, loadAndRun_of_hostLoad hload hook fuel⟩
  rw [hpc, ← BitVec.ofNat_add, memRead_hostReset]
  exact memRead_loaded_image s program hl i hi

/-! ### The loop of `run` (R223, R227) -/

section
variable {s : State} (hook : Option Hook) (fuel : Nat)

/-- Where the state is not Running no step exists, so `run` returns it at once. -/
theorem hostRun_of_not_running (h : s.run ≠ .running) : hostRun hook fuel s = some s := by
  cases fuel with
  | zero => simp only [hostRun, h, if_false]
  | succ fuel =>
    rcases s.run.cases_eq with hr | hr | ⟨k, hr⟩
    · exact absurd hr h
    · simp only [hostRun, step_of_halted hr]
    · simp only [hostRun, step_of_faulted hr]

theorem hostRun_zero_of_running (h : s.run = .running) : hostRun hook 0 s = none :=
  if_pos h

theorem hostRun_succ_of_step {t : State} (h : step s = .next t) :
    hostRun hook (fuel + 1) s = hostRun hook fuel (afterInstr hook t) := by
  simp only [hostRun, h]

end

/-- What `run` returns is not Running, and a larger bound returns the same: induction on the bound, with the step of a
Running state and its absence from any other. -/
theorem hostRun_some {hook : Option Hook} {fuel : Nat} : ∀ {s t : State}, hostRun hook fuel s = some t →
    t.run ≠ .running ∧ ∀ more, hostRun hook (fuel + more) s = some t := by
  induction fuel with
  | zero =>
    intro s t h
    by_cases hr : s.run = .running
    · simp [hostRun_zero_of_running hook hr] at h
    · cases (hostRun_of_not_running hook 0 hr).symm.trans h
      exact ⟨hr, fun more => hostRun_of_not_running hook _ hr⟩
  | succ fuel ih =>
    intro s t h
    by_cases hr : s.run = .running
    · obtain ⟨u, hu⟩ := step_next hr
      rw [hostRun_succ_of_step hook fuel hu] at h
      obtain ⟨hend, hmore⟩ := ih h
      refine ⟨hend, fun more => ?_⟩
      rw [Nat.add_right_comm, hostRun_succ_of_step hook _ hu, hmore more]
    · cases (hostRun_of_not_running hook _ hr).symm.trans h
      exact ⟨hr, fun more => hostRun_of_not_running hook _ hr⟩

/-- Settles O56: the equations of the loop, and what it returns by `hostRun_some`. -/
theorem runEndsHaltedOrFaulted : Obligations.RunEndsHaltedOrFaulted := by
  intro hook fuel s
  refine ⟨fun t h => ?_, hostRun_of_not_running hook fuel, fun t _ => hostRun_succ_of_step hook fuel,
    hostRun_zero_of_running hook, fun t more h => (hostRun_some h).2 more⟩
  exact t.run.cases_eq.resolve_left (hostRun_some h).1

/-! ### The hook (R224) -/

section
variable {s : State}

theorem afterInstr_of_faulted {k : FaultKind} (h : s.run = .faulted k) (hook : Option Hook) :
    afterInstr hook s = s := by
  simp only [afterInstr, h]

theorem afterInstr_none (s : State) : afterInstr none s = s := by
  cases hr : s.run <;> simp only [afterInstr, hr]

theorem afterInstr_some (h : ∀ k, s.run ≠ .faulted k) (hook : Hook) :
    afterInstr (some hook) s = writeRamCells s (hook s) := by
  rcases s.run.cases_eq with hr | hr | ⟨k, hr⟩
  · simp only [afterInstr, hr]
  · simp only [afterInstr, hr]
  · exact absurd hr (h k)

/-- What follows an instruction replaces RAM at most. -/
theorem afterInstr_eq (hook : Option Hook) (s : State) : ∃ ram, afterInstr hook s = { s with ram := ram } := by
  by_cases hf : ∃ k, s.run = .faulted k
  · obtain ⟨k, hk⟩ := hf
    exact ⟨s.ram, afterInstr_of_faulted hk hook⟩
  cases hook with
  | none => exact ⟨s.ram, afterInstr_none s⟩
  | some h =>
    rw [afterInstr_some (not_exists.1 hf)]
    exact writeRamCells_eq (h s) s

end

/-- A cell reads as the last write that names it: those before it are overwritten, those after it name other cells. -/
theorem writeRamCells_get_last (s : State) (before : List (BitVec 11 × Byte)) {rest : List (BitVec 11 × Byte)}
    {c : BitVec 11} (v : Byte) (h : ∀ w ∈ rest, w.1 ≠ c) :
    (writeRamCells s (before ++ (c, v) :: rest)).ram.get c.toNat = v := by
  have hne : ∀ w ∈ rest, w.1.toNat ≠ c.toNat := fun w hw he => h w hw (BitVec.eq_of_toNat_eq he)
  rw [writeRamCells_append, writeRamCells, writeRamCells_get_of_ne rest hne]
  simp

/-- Settles O57: the hook's writes replace RAM alone, in order, and a Faulted state or no hook has none. -/
theorem theHookWritesRamOnly : Obligations.TheHookWritesRamOnly := by
  intro hook s
  obtain ⟨ram, heq⟩ := afterInstr_eq hook s
  refine ⟨⟨ram, heq⟩, fun addr ha => memRead_eq_of_rom_eq ha (by rw [heq]), fun k hk => afterInstr_of_faulted hk hook,
    fun hn => hn ▸ afterInstr_none s, fun h hf => ?_⟩
  rw [afterInstr_some hf]
  refine ⟨rfl, fun before rest c v hw hlast addr ha hc => ?last, fun addr ha hne => ?other⟩
  case last => rw [memRead_ram ha, hc, hw, writeRamCells_get_last s before v hlast]
  case other => rw [memRead_ram ha, memRead_ram ha, writeRamCells_get_of_ne (h s) hne]

end Sys2Proof.Machine
end
